-- ==== Sys2Proof/Word.lean ====
section
/-! DEFINITION. The words of the engine: bytes and register widths (R8, R9). -/

namespace Sys2Proof

/-- A byte, 8 bits (R8, R9). -/
abbrev Byte := BitVec 8

/-- The width of a cell voltage register, CELL_AGE and CFG_REFRESH (R8). -/
abbrev W16 := BitVec 16

/-- The width of a settings register (R8). -/
abbrev W32 := BitVec 32

/-- The width and encoding of the pending-request tag (R30). -/
abbrev Tag := BitVec 2

end Sys2Proof
end

