-- ==== Sys2Proof/Config.lean ====
section
/-! DEFINITION. What is fixed for one engine: the constants of R6, the parameters of R7 with their constraints, and
the free values of a torn status read (R70). -/

namespace Sys2Proof

/-- The eight settings of R22, by mnemonic; `ST[0..7]` in this order. -/
inductive Setting where
  | uvp | uvpr | ovp | ovpr | baltrig | pwroff | maxchg | cellcnt
deriving DecidableEq, Repr

/-- One `α` for each of the eight settings of R22. -/
structure PerSetting (α : Type) where
  uvp : α
  uvpr : α
  ovp : α
  ovpr : α
  baltrig : α
  pwroff : α
  maxchg : α
  cellcnt : α
deriving DecidableEq, Repr

namespace Config

/-- IN_MARKER (R6): the inbound start marker, offset 0 first (R62). -/
def inMarker : List Byte := [0x55, 0xAA, 0xEB, 0x90]

/-- OUT_MARKER (R6): the outbound start marker, offset 0 first (R62). -/
def outMarker : List Byte := [0xAA, 0x55, 0x90, 0xEB]

/-- KIND_OFF (R6). -/
def kindOff : Nat := 4

/-- CK_OFF (R6). -/
def ckOff : Nat := 299

/-- MIN_FRAME (R6). -/
def minFrame : Nat := 300

/-- MAX_FRAME (R6). -/
def maxFrame : Nat := 320

/-- OUT_CK_OFF (R6). -/
def outCkOff : Nat := 19

/-- ADDR_REQ_CELL_INFO (R6). -/
def addrReqCellInfo : Byte := 0x96

/-- CELL_BASE (R6). -/
def cellBase : Nat := 6

/-- CELL_STRIDE (R6). -/
def cellStride : Nat := 2

/-- CELL_WIDTH (R6). -/
def cellWidth : Nat := 2

/-- SETTING_WIDTH (R6). -/
def settingWidth : Nat := 4

/-- TMO_DEFAULT (R6): the reset value of CFG_TMO (R34). -/
def tmoDefault : Byte := 10

/-- Free value (R70 item 3, U13; log 4): does the overlapping status read number `serial` see the value from before
the FEED in settings register `index` (0..7)? Nothing constrains it. -/
opaque tornSetting (serial index : Nat) : Bool

/-- Free value (R70 item 3, U13; log 4): does the overlapping status read number `serial` see the value from before
the FEED in cell register `k` (1..NCELL_MAX)? Nothing constrains it. -/
opaque tornCell (serial k : Nat) : Bool

end Config

/-- The eight settings offsets as a list, in the order of R22. -/
def PerSetting.toList {α : Type} (p : PerSetting α) : List α :=
  [p.uvp, p.uvpr, p.ovp, p.ovpr, p.baltrig, p.pwroff, p.maxchg, p.cellcnt]

/-- The constraints of R7: `NCELL_MAX <= 146`, every offset in `5 < OFF <= 295`, the eight 4-byte ranges pairwise
disjoint, and `ADDR_REQ_DEVICE_INFO` different from `ADDR_REQ_CELL_INFO`. -/
def paramsOk (ncellMax : Nat) (off : PerSetting Nat) (addr : Byte) : Bool :=
  decide (ncellMax ≤ 146)
    && off.toList.all (fun o => decide (5 < o ∧ o ≤ 295))
    && decide (off.toList.Pairwise (fun a b => a + 4 ≤ b ∨ b + 4 ≤ a))
    && decide (addr ≠ Config.addrReqCellInfo)

/-- The parameters the source leaves open (R7). A model "takes each as an argument": they stand in State, no
operation writes them, and values that violate R7's constraints cannot be built (R252: a fault of instantiating the
model). -/
structure Params where
  /-- NCELL_MAX, the capacity of the cell-voltage file. -/
  ncellMax : Nat
  /-- OFF_UVP .. OFF_CELLCNT. -/
  off : PerSetting Nat
  /-- ADDR_REQ_DEVICE_INFO. -/
  addrReqDeviceInfo : Byte
  /-- PROTO_IMPL. -/
  protoImpl : Byte
  /-- The constraints of R7 hold. -/
  ok : paramsOk ncellMax off addrReqDeviceInfo = true
deriving DecidableEq, Repr

/-- The default parameters of R7. PRESUMED (log 3): the spec marks NCELL_MAX, the offsets and the address as general
knowledge, not in its source, and PROTO_IMPL as an arbitrary value. -/
def Params.default : Params where
  ncellMax := 24
  off := ⟨10, 14, 18, 22, 26, 46, 50, 114⟩
  addrReqDeviceInfo := 0x97
  protoImpl := 0x02
  ok := by decide

end Sys2Proof
end

