-- ==== Sys2Proof/Syntax.lean ====
section
/-! DEFINITION. The syntax: the raw events at the engine's ports, the codes an instruction is read from, and `Instr`,
one constructor per row of spec/opcode_table.json (R2, R112). -/

namespace Sys2Proof

/-- The four value bytes `v[0..4)` of an outbound frame, a byte string without byte order (R62, R98). -/
structure Value where
  v0 : Byte
  v1 : Byte
  v2 : Byte
  v3 : Byte
deriving DecidableEq, Repr

/-- The value `00 00 00 00` of a request (R99). -/
def Value.zero : Value := ⟨0, 0, 0, 0⟩

/-- The value's bytes in the order they are sent (R62). -/
def Value.bytes (v : Value) : List Byte := [v.v0, v.v1, v.v2, v.v3]

/-- The command word of R101, by field. -/
structure CmdWord where
  /-- `cmd_op`: 0 WRITE_REG, 1 REQ_CELL_INFO, 2 REQ_DEVICE_INFO, 3 reserved. -/
  op : BitVec 2
  addr : Byte
  len : Byte
  val : Value
deriving DecidableEq, Repr

/-- The operand of CFG_WRITE: the register and a value of its width (R250). -/
inductive CfgWrite where
  | proto (v : Byte)
  | refresh (v : W16)
  | tmo (v : Byte)
deriving DecidableEq, Repr

/-- The inbound frame kinds (R93), "a closed tagged-union/enum match" (R150). -/
inductive FrameKind where
  | settings | cellinfo | deviceinfo
deriving DecidableEq, Repr

/-- A raw event at an input port (R40). The port is what selects the operation (R90, format OP). -/
inductive PortEvent where
  /-- `rst`. -/
  | rst
  /-- `session_reset`. -/
  | sessionReset
  /-- `cfg`: register select and value. -/
  | cfg (c : CfgWrite)
  /-- `in_chunk`: one chunk, delivered as a unit. -/
  | inChunk (c : List Byte)
  /-- `tick`. -/
  | tick
  /-- `cmd`: the 2 + 8 + 8 + 32 bits of a command word (R101, R108). -/
  | cmd (w : BitVec 50)
  /-- `status`: a read; `overlap` says that it overlaps the latest FEED (R70 items 2 and 3). -/
  | status (overlap : Bool)
deriving DecidableEq, Repr

/-- The instructions: the fifteen rows of spec/opcode_table.json. -/
inductive Instr where
  /-- SETTINGS (R153): operand the frame F. -/
  | settings (f : List Byte)
  /-- CELLINFO (R155 to R157): operand the frame F. -/
  | cellinfo (f : List Byte)
  /-- DEVICEINFO (R158): operand the frame F, no payload byte of which is read. -/
  | deviceinfo (f : List Byte)
  /-- WRITE_REG (R181). -/
  | writeReg (a l : Byte) (v : Value)
  /-- REQ_CELL_INFO (R182, R201 to R203). -/
  | reqCellInfo
  /-- REQ_DEVICE_INFO (R183, R201 to R203). -/
  | reqDeviceInfo
  /-- FEED (R130): operand the chunk. -/
  | feed (c : List Byte)
  /-- TICK (R204). -/
  | tick
  /-- CMD (R201): operand the command word. -/
  | cmd (w : CmdWord)
  /-- SESSION_RESET (R261). -/
  | sessionReset
  /-- RESET (R260). -/
  | reset
  /-- STATUS_READ (R251); `overlap` says that it overlaps the latest FEED (R70). -/
  | statusRead (overlap : Bool)
  /-- CFG_WRITE (R250). -/
  | cfgWrite (c : CfgWrite)
  /-- CHECKSUM (R120): operands the bytes `s` and the length `n`. -/
  | checksum (s : List Byte) (n : Nat)
  /-- BUILD (R180). -/
  | build (a l : Byte) (v : Value)
deriving DecidableEq, Repr

/-- What an instruction is read from: the three encodings of the spec (30_encoding.md), the port events of format OP
(R90), and the operands of the two internal functions, which no port triggers (R108). -/
inductive Code where
  /-- Format OP: the event on a port is the operation. -/
  | port (e : PortEvent)
  /-- Format IN: an inbound frame. -/
  | frameIn (f : List Byte)
  /-- The `cmd_encoding` of an OUT row: the command word that makes the engine emit it (R108). -/
  | command (w : BitVec 50)
  /-- Format OUT: the bytes of an outbound frame. -/
  | frameOut (f : List Byte)
  /-- A call of the internal function CHECKSUM. -/
  | callChecksum (s : List Byte) (n : Nat)
  /-- A call of the internal function BUILD. -/
  | callBuild (a l : Byte) (v : Value)
deriving DecidableEq, Repr

/-- The formats of R90, with the internal functions apart. -/
inductive Format where
  | inFrame | outFrame | command | op | internal
deriving DecidableEq, Repr

end Sys2Proof
end

