-- ==== Sys2Proof/Machine/Operands.lean ====
section
/-! DEFINITION. Operand forms: bytes of a sequence, little-endian fields (R9, R10, R61, R102), the checksum over bytes
(R120) and the access by setting (R10). -/

namespace Sys2Proof.Machine

/-- `s[i]`, the byte of `s` at offset `i` (R9). Every use is at `i < |s|` (R66); beyond the end, where the spec
defines nothing, it is 0 (log 18). -/
def byteAt (s : List Byte) (i : Nat) : Byte := s.getD i 0

/-- `le(s)`: the byte at the lowest offset is the least significant (R9, R61). -/
def le : List Byte → Nat
  | [] => 0
  | b :: s => b.toNat + 256 * le s

/-- `MemRead(addr, n) = le(F[addr .. addr+n))` (R10). -/
def memRead (f : List Byte) (addr n : Nat) : Nat := le ((f.drop addr).take n)

/-- The 4-byte field at `off`, zero-extended to 32 bits (R95, R102). -/
def field32 (f : List Byte) (off : Nat) : W32 := BitVec.ofNat 32 (memRead f off Config.settingWidth)

/-- The offset of cell voltage field `i`, counted from 0: `6 + 2*i` (R6, R96). -/
def cellOff (i : Nat) : Nat := Config.cellBase + Config.cellStride * i

/-- The 2-byte field of cell `i`, zero-extended to 16 bits (R96, R102). -/
def field16 (f : List Byte) (i : Nat) : W16 := BitVec.ofNat 16 (memRead f (cellOff i) Config.cellWidth)

/-- `CHECKSUM(s, n) = (s[0] + ... + s[n-1]) mod 256` (R120). -/
def checksum (s : List Byte) (n : Nat) : Byte := BitVec.ofNat 8 (((s.take n).map BitVec.toNat).sum)

/-- Does the chunk begin with the start marker? All 32 bits are compared, and a chunk of fewer than 4 bytes does not
begin with it (R132, R137). -/
def beginsWithMarker (c : List Byte) : Bool := decide (4 ≤ c.length) && c.take 4 == Config.inMarker

/-- Saturating increment: `min(2^w - 1, x + 1)` (R9, R204). -/
def satInc {w : Nat} (x : BitVec w) : BitVec w := BitVec.ofNat w (min (2 ^ w - 1) (x.toNat + 1))

end Sys2Proof.Machine

namespace Sys2Proof

/-- The entry of one setting. -/
def PerSetting.get {α : Type} (p : PerSetting α) : Setting → α
  | .uvp => p.uvp
  | .uvpr => p.uvpr
  | .ovp => p.ovp
  | .ovpr => p.ovpr
  | .baltrig => p.baltrig
  | .pwroff => p.pwroff
  | .maxchg => p.maxchg
  | .cellcnt => p.cellcnt

/-- Replace the entry of one setting. -/
def PerSetting.set {α : Type} (p : PerSetting α) (r : Setting) (x : α) : PerSetting α :=
  match r with
  | .uvp => { p with uvp := x }
  | .uvpr => { p with uvpr := x }
  | .ovp => { p with ovp := x }
  | .ovpr => { p with ovpr := x }
  | .baltrig => { p with baltrig := x }
  | .pwroff => { p with pwroff := x }
  | .maxchg => { p with maxchg := x }
  | .cellcnt => { p with cellcnt := x }

/-- The index `i` of `ST[i]` (R22). -/
def Setting.index : Setting → Nat
  | .uvp => 0
  | .uvpr => 1
  | .ovp => 2
  | .ovpr => 3
  | .baltrig => 4
  | .pwroff => 5
  | .maxchg => 6
  | .cellcnt => 7

end Sys2Proof
end

