-- ==== Sys2Proof/WellFormed.lean ====
section
/-! DEFINITION. Which terms of `Instr` the spec gives a meaning: an inbound frame is a complete buffer whose checksum
matches and whose byte 4 is the kind (R150), and CHECKSUM's length is within its bytes (R120). -/

namespace Sys2Proof

open Machine

/-- The kind byte of R93. -/
def FrameKind.byte : FrameKind → Byte
  | .settings => 0x01
  | .cellinfo => 0x02
  | .deviceinfo => 0x03

/-- A buffer that DISPATCH may be called on and that selects kind `k`: complete (300 bytes or more), valid (its
checksum matches), byte 4 the kind byte (R12, R121, R150, R152). -/
def frameOk (k : FrameKind) (f : List Byte) : Bool :=
  decide (Config.minFrame ≤ f.length)
    && byteAt f Config.kindOff == k.byte
    && checksum f Config.ckOff == byteAt f Config.ckOff

/-- The check of an instruction. -/
def Instr.wellFormed : Instr → Bool
  | .settings f => frameOk .settings f
  | .cellinfo f => frameOk .cellinfo f
  | .deviceinfo f => frameOk .deviceinfo f
  | .writeReg _ _ _ => true
  | .reqCellInfo => true
  | .reqDeviceInfo => true
  | .feed _ => true
  | .tick => true
  | .cmd _ => true
  | .sessionReset => true
  | .reset => true
  | .statusRead _ => true
  | .cfgWrite _ => true
  | .checksum s n => decide (n ≤ s.length)
  | .build _ _ _ => true

end Sys2Proof
end

