-- ==== Sys2Proof/Decode.lean ====
section
/-! DEFINITION. The decoder, total on every code and refusing by name, and after it the encoder, both written from
30_encoding.md (R90 to R112). -/

namespace Sys2Proof

open Machine

/-- Why a code is no instruction. -/
inductive DecodeError where
  /-- Fewer bytes than the format has. -/
  | shortFrame
  /-- A kind byte other than 01, 02, 03 (R104). The engine itself raises UNK for it (R159). -/
  | unknownKind (k : Byte)
  /-- An outbound frame without the marker `AA 55 90 EB` (R98). -/
  | badMarker
  /-- An outbound frame whose padding is not zero (R98, R105). -/
  | badPadding
  /-- `cmd_op` = 3 selects no outbound row (R106); CMD itself accepts it with no effect. -/
  | reservedCommand
deriving DecidableEq, Repr

/-! ### Format IN -/

/-- Kind selection on the byte at offset 4, all 8 bits compared (R93, R152). -/
def decodeKind (k : Byte) : Except DecodeError FrameKind :=
  if k = 0x01 then .ok .settings
  else if k = 0x02 then .ok .cellinfo
  else if k = 0x03 then .ok .deviceinfo
  else .error (.unknownKind k)

/-- An inbound frame (R91). Only byte 4 takes part; the marker is not tested again (R92). -/
def decodeFrameIn (f : List Byte) : Except DecodeError Instr :=
  if f.length < Config.minFrame then .error .shortFrame
  else
    match decodeKind (byteAt f Config.kindOff) with
    | .ok .settings => .ok (.settings f)
    | .ok .cellinfo => .ok (.cellinfo f)
    | .ok .deviceinfo => .ok (.deviceinfo f)
    | .error e => .error e

/-! ### Format CMD -/

/-- The fields of a command word: `cmd_op` in the two most significant bits, then `cmd_addr`, `cmd_len`, and the four
value bytes, `val[0]` first (R101, R108; log 7). -/
def decodeCmdWord (w : BitVec 50) : CmdWord where
  op := w.extractLsb' 48 2
  addr := w.extractLsb' 40 8
  len := w.extractLsb' 32 8
  val := ⟨w.extractLsb' 24 8, w.extractLsb' 16 8, w.extractLsb' 8 8, w.extractLsb' 0 8⟩

/-- The OUT row a command word asks for (the rows' `cmd_encoding`, R101, R108). -/
def decodeCommand (w : BitVec 50) : Except DecodeError Instr :=
  let c := decodeCmdWord w
  if c.op = 0 then .ok (.writeReg c.addr c.len c.val)
  else if c.op = 1 then .ok .reqCellInfo
  else if c.op = 2 then .ok .reqDeviceInfo
  else .error .reservedCommand

/-! ### Format OUT -/

/-- The row of an outbound frame, on offsets 0..18 (R98, R99, R108). Where the bytes are those of a request, the
request is the row: WRITE_REG to a request address builds the same bytes (R99; log 9). -/
def decodeFrameOut (p : Params) (f : List Byte) : Except DecodeError Instr :=
  if f.length < Config.outCkOff then .error .shortFrame
  else if f.take 4 ≠ Config.outMarker then .error .badMarker
  else if (f.drop 10).take 9 ≠ List.replicate 9 0 then .error .badPadding
  else
    let v : Value := ⟨byteAt f 6, byteAt f 7, byteAt f 8, byteAt f 9⟩
    if byteAt f 4 = Config.addrReqCellInfo ∧ byteAt f 5 = 0 ∧ v = Value.zero then .ok .reqCellInfo
    else if byteAt f 4 = p.addrReqDeviceInfo ∧ byteAt f 5 = 0 ∧ v = Value.zero then .ok .reqDeviceInfo
    else .ok (.writeReg (byteAt f 4) (byteAt f 5) v)

/-! ### Format OP -/

/-- The event on a port is the operation (R40, R90): total, never refused. -/
def decodePort : PortEvent → Instr
  | .rst => .reset
  | .sessionReset => .sessionReset
  | .cfg c => .cfgWrite c
  | .inChunk c => .feed c
  | .tick => .tick
  | .cmd w => .cmd (decodeCmdWord w)
  | .status o => .statusRead o

/-- The whole decoder. -/
def decode (p : Params) : Code → Except DecodeError Instr
  | .port e => .ok (decodePort e)
  | .frameIn f => decodeFrameIn f
  | .command w => decodeCommand w
  | .frameOut f => decodeFrameOut p f
  | .callChecksum s n => .ok (.checksum s n)
  | .callBuild a l v => .ok (.build a l v)

/-! ### The encoder -/

/-- The 20-byte outbound frame (R98, R180): marker, address, length, value, nine zero bytes (C1), checksum of offsets
0..18 (R122). -/
def buildFrame (a l : Byte) (v : Value) : List Byte :=
  let body := Config.outMarker ++ [a, l] ++ v.bytes ++ List.replicate 9 0
  body ++ [checksum body Config.outCkOff]

/-- The command word as 50 bits: `cmd_op`, then byte after byte, the first field most significant (R101, R108; log 7). -/
def encodeCmdWord (c : CmdWord) : BitVec 50 :=
  let bytes := [c.addr, c.len] ++ c.val.bytes
  BitVec.ofNat 50 (bytes.foldl (fun acc b => acc * 256 + b.toNat) c.op.toNat)

/-- The command word of an accepted WRITE_REG (`cmd_op` 0). -/
def wordWriteReg (a l : Byte) (v : Value) : BitVec 50 := encodeCmdWord ⟨0, a, l, v⟩

/-- The command word of REQ_CELL_INFO (`cmd_op` 1), the ignored bits zero (R101). -/
def wordReqCellInfo : BitVec 50 := encodeCmdWord ⟨1, 0, 0, Value.zero⟩

/-- The command word of REQ_DEVICE_INFO (`cmd_op` 2), the ignored bits zero (R101). -/
def wordReqDeviceInfo : BitVec 50 := encodeCmdWord ⟨2, 0, 0, Value.zero⟩

/-- The code of an instruction: IN rows by their frame, OUT rows by their command word, OP rows by their port event,
the internal functions by their call. -/
def encode : Instr → Code
  | .settings f => .frameIn f
  | .cellinfo f => .frameIn f
  | .deviceinfo f => .frameIn f
  | .writeReg a l v => .command (wordWriteReg a l v)
  | .reqCellInfo => .command wordReqCellInfo
  | .reqDeviceInfo => .command wordReqDeviceInfo
  | .feed c => .port (.inChunk c)
  | .tick => .port .tick
  | .cmd w => .port (.cmd (encodeCmdWord w))
  | .sessionReset => .port .sessionReset
  | .reset => .port .rst
  | .statusRead o => .port (.status o)
  | .cfgWrite c => .port (.cfg c)
  | .checksum s n => .callChecksum s n
  | .build a l v => .callBuild a l v

/-- The bytes of the outbound frame of an OUT row (R99, R181 to R183). -/
def encodeFrameOut (p : Params) : Instr → Option (List Byte)
  | .writeReg a l v => some (buildFrame a l v)
  | .reqCellInfo => some (buildFrame Config.addrReqCellInfo 0 Value.zero)
  | .reqDeviceInfo => some (buildFrame p.addrReqDeviceInfo 0 Value.zero)
  | .settings _ => none
  | .cellinfo _ => none
  | .deviceinfo _ => none
  | .feed _ => none
  | .tick => none
  | .cmd _ => none
  | .sessionReset => none
  | .reset => none
  | .statusRead _ => none
  | .cfgWrite _ => none
  | .checksum _ _ => none
  | .build _ _ _ => none

/-- The format of an opcode-table row's code (R90, R112); OUT rows are encoded by their command word. -/
def Instr.format : Instr → Format
  | .settings _ => .inFrame
  | .cellinfo _ => .inFrame
  | .deviceinfo _ => .inFrame
  | .writeReg _ _ _ => .command
  | .reqCellInfo => .command
  | .reqDeviceInfo => .command
  | .feed _ => .op
  | .tick => .op
  | .cmd _ => .op
  | .sessionReset => .op
  | .reset => .op
  | .statusRead _ => .op
  | .cfgWrite _ => .op
  | .checksum _ _ => .internal
  | .build _ _ _ => .internal

/-- The format of a code. -/
def Code.format : Code → Format
  | .port _ => .op
  | .frameIn _ => .inFrame
  | .command _ => .command
  | .frameOut _ => .outFrame
  | .callChecksum _ _ => .internal
  | .callBuild _ _ _ => .internal

/-! ### The opcode table's words -/

/-- The bytes of a table word, offset 0 in the least significant bits. -/
def wordBytes (n w : Nat) : List Byte := (List.range n).map fun i => BitVec.ofNat 8 (w >>> (8 * i))

/-- A table word of format IN gives offsets 0..4: the frame with zeros in the rest of its payload and, at offset 299,
the checksum without which no frame reaches its kind's routine (R111 FRAME, R121; log 8). -/
def sealFrame (head : List Byte) : List Byte :=
  let body := (head ++ List.replicate Config.ckOff 0).take Config.ckOff
  body ++ [checksum body Config.ckOff]

/-- The instruction this decoder reads from a word of spec/opcode_table.json, numbered as the table numbers it: 40
bits are offsets 0..4 of an inbound frame, 152 bits are offsets 0..18 of an outbound frame, and 8 bits are a byte on
the wire, which is a chunk of one byte (R90, R108; log 8). The parameters are the defaults, as in the table. -/
def decodeTableWord (nbits w : Nat) : Option Instr :=
  match nbits with
  | 40 => (decodeFrameIn (sealFrame (wordBytes 5 w))).toOption
  | 152 => (decodeFrameOut Params.default (wordBytes 19 w)).toOption
  | 8 => some (.feed (wordBytes 1 w))
  | _ => none

end Sys2Proof
end

