-- ==== Sys2Proof/Machine/State.lean ====
section
/-! DEFINITION. The state of the engine (R20), the reasons a step can stop, and the state after RESET (R50). -/

namespace Sys2Proof.Machine

/-- One settings register with its valid bit, which are read and written together (R22, R65, R70). -/
structure SettingReg where
  /-- `ST[i]`, the raw integer, unsigned (R24, R28). -/
  val : W32
  /-- `STV[i]`. -/
  valid : Bool
deriving DecidableEq, Repr

/-- One cell voltage register with its valid bit (R23, R65, R70). -/
structure CellReg where
  /-- `CV[k]`, the raw integer, unsigned (R24, R28). -/
  val : W16
  /-- `CVV[k]`. -/
  valid : Bool
deriving DecidableEq, Repr

/-- The StatusModel (R22, R23): what STATUS_READ returns (R251). -/
structure StatusModel where
  /-- `ST[0..7]`, `STV[0..7]`. -/
  st : PerSetting SettingReg
  /-- `CV[1..NCELL_MAX]`, `CVV[1..NCELL_MAX]`; register `k` is entry `k - 1`. -/
  cv : List CellReg
deriving DecidableEq, Repr

/-- A condition as the `event` port carries it: its name and its information (R230; log 17). -/
inductive Event where
  /-- Buffer over MAX_FRAME dropped: the dropped length. -/
  | ovf (len : Nat)
  /-- Checksum mismatch: the computed and the stored byte. -/
  | csf (computed stored : Byte)
  /-- Unsupported protocol version: CFG_PROTO. -/
  | ver (cfgProto : Byte)
  /-- Request timeout: the abandoned tag. -/
  | tmo (tag : Tag)
  /-- Unknown kind: the kind byte. -/
  | unk (kind : Byte)
  /-- Cell count above NCELL_MAX: ST[7]. -/
  | rng (count : W32)
  /-- A request launched while another was pending: the abandoned tag. -/
  | wfo (tag : Tag)
  /-- A CELLINFO frame consumed without decode by the rate limit: CELL_AGE. -/
  | rlm (cellAge : W16)
deriving DecidableEq, Repr

/-- The value an operation returns: the tuple of STATUS_READ (R251), the byte of CHECKSUM (R120), the frame of BUILD
(R180). -/
inductive Answer where
  | status (m : StatusModel)
  | byte (b : Byte)
  | frame (f : List Byte)
deriving DecidableEq, Repr

/-- What the latest operation presented on its output ports (R40). Outputs are not retained by the engine (R20); the
model keeps those of one operation so that they can be seen (log 2). -/
structure Outputs where
  /-- `out_frame`: the 20-byte frames emitted, oldest first (R76). -/
  frames : List (List Byte)
  /-- `event`: the event list (R231). -/
  events : List Event
  /-- The returned value, where the operation returns one. -/
  answer : Option Answer
deriving DecidableEq, Repr

/-- Nothing presented. -/
def Outputs.none : Outputs := ⟨[], [], .none⟩

/-- Faults: the model stops. Safe, each of them: only an internal row run by itself outside the domain its rule gives
it raises one, and no step of the machine does (log 6). -/
inductive Fault where
  /-- Raised by SETTINGS and CELLINFO on a frame shorter than 300 bytes, where MemRead is not defined (R10, R150).
  Safe. -/
  | frameTooShort
  /-- Raised by CHECKSUM(s, n) with `n > |s|`, outside `0 <= n <= |s|` (R120). Safe. -/
  | checksumRange
deriving DecidableEq, Repr

/-- Refusals. -/
inductive Refusal where
  /-- Raised by no instruction of this model: every row has its meaning. Safe. -/
  | notModelled (mnemonic : String)
deriving DecidableEq, Repr

end Sys2Proof.Machine

namespace Sys2Proof.Machine

/-- The state: the tuple of R20, then the model's own fields. -/
structure State where
  /-- BUF, the frame buffer (R25, R26). -/
  buf : List Byte
  /-- ST, STV, CV, CVV (R22, R23). -/
  status : StatusModel
  /-- PEND (R30). -/
  pend : Tag
  /-- AGE (R31). -/
  age : Byte
  /-- HOLD_V (R32). -/
  holdV : Bool
  /-- HOLD_T (R32). -/
  holdT : Tag
  /-- WAIT (R32). -/
  wait : Byte
  /-- CELL_SEEN (R33). -/
  cellSeen : Bool
  /-- CELL_AGE (R33). -/
  cellAge : W16
  /-- CFG_PROTO (R34). -/
  cfgProto : Byte
  /-- CFG_REFRESH (R34). -/
  cfgRefresh : W16
  /-- CFG_TMO (R34). -/
  cfgTmo : Byte
  /-- EVT (R35). -/
  evt : BitVec 8
  /-- Model's own: the parameters of R7, arguments of the model, never written (log 3). -/
  params : Params
  /-- Model's own: the status registers before the latest FEED, for an overlapping STATUS_READ (R70; log 4). -/
  statusBefore : StatusModel
  /-- Model's own: how many overlapping STATUS_READs there were, the argument of their free values (log 4). -/
  serial : Nat
  /-- Model's own: the port events not yet taken, oldest first: the rest of the total order of R70 (log 1). -/
  inbox : List PortEvent
  /-- Model's own: the outputs of the latest operation (log 2). -/
  out : Outputs
deriving DecidableEq, Repr

/-- A status model with every value 0 and every valid bit clear (R50). -/
def StatusModel.cleared (p : Params) : StatusModel where
  st := ⟨⟨0, false⟩, ⟨0, false⟩, ⟨0, false⟩, ⟨0, false⟩, ⟨0, false⟩, ⟨0, false⟩, ⟨0, false⟩, ⟨0, false⟩⟩
  cv := List.replicate p.ncellMax ⟨0, false⟩

/-- The engine with parameters `p` right after RESET (R50), no port event waiting and nothing presented. -/
def State.resetWith (p : Params) : State where
  buf := []
  status := StatusModel.cleared p
  pend := 0
  age := 0
  holdV := false
  holdT := 0
  wait := 0
  cellSeen := false
  cellAge := 0
  cfgProto := p.protoImpl
  cfgRefresh := 0
  cfgTmo := Config.tmoDefault
  evt := 0
  params := p
  statusBefore := StatusModel.cleared p
  serial := 0
  inbox := []
  out := Outputs.none

/-- The machine right after RESET, with the default parameters of R7 (R50; log 3). -/
def State.reset : State := State.resetWith Params.default

/-- `CV[k]` with `CVV[k]`, for `k` in `1..NCELL_MAX` (R10, R23). -/
def StatusModel.cell (m : StatusModel) (k : Nat) : CellReg := m.cv.getD (k - 1) ⟨0, false⟩

/-- `LEN = |BUF|` (R21). -/
def State.len (s : State) : Nat := s.buf.length

/-- `cmd_ready = (HOLD_V == 0)` (R41). -/
def State.cmdReady (s : State) : Bool := !s.holdV

/-- BUF as memory cells: offset and byte (R60; log 18). -/
def Memory.cells (buf : List Byte) : List Host.Cell := (List.range buf.length).zip buf

/-- The canonical form of a memory: addresses strictly rising (log 18). -/
def Memory.wf (cells : List Host.Cell) : Bool := decide ((cells.map Prod.fst).Pairwise (· < ·))

end Sys2Proof.Machine
end

