-- ==== Sys2Proof/Machine/Flags.lean ====
section
/-! DEFINITION. The flags: the sticky bits EVT (R35, R230) and the reader's view of the valid bits (R28, R29, R251). -/

namespace Sys2Proof.Machine

/-- The code of a condition, its bit number in EVT (R35, R230). -/
def Event.code : Event → Nat
  | .ovf _ => 0
  | .csf _ _ => 1
  | .ver _ => 2
  | .tmo _ => 3
  | .unk _ => 4
  | .rng _ => 5
  | .wfo _ => 6
  | .rlm _ => 7

/-- The EVT word with only this condition's bit set. -/
def evtBit (e : Event) : BitVec 8 := BitVec.ofNat 8 (2 ^ e.code)

/-- The physical value of a scaled register, the exact rational `raw / 1000` (R28, R161). -/
def physical (raw : Nat) : Rat := (raw : Rat) / 1000

/-- The source's StatusModel keys (R22, R23, R251). -/
inductive StatusKey where
  | setting (r : Setting)
  | cellVoltage (k : Nat)
deriving DecidableEq, Repr

/-- The source's mapping as a reader sees it: a key is present iff its valid bit is set; voltages and the current are
`raw / 1000`, the cell count is unscaled (R29, R251). -/
def StatusModel.lookup (m : StatusModel) : StatusKey → Option Rat
  | .setting r =>
    if (m.st.get r).valid then
      some (if r = .cellcnt then ((m.st.get r).val.toNat : Rat) else physical (m.st.get r).val.toNat)
    else none
  | .cellVoltage k =>
    if 1 ≤ k ∧ (m.cell k).valid then some (physical (m.cell k).val.toNat) else none

end Sys2Proof.Machine
end

