-- ==== Sys2Proof/Machine/Ops.lean ====
section
/-! DEFINITION. The shared operations on the state: raising a condition (R231), emitting a frame (R10), the buffer, the
tag, the held request, the status registers. -/

namespace Sys2Proof.Machine

/-- `raise X(info)`, the one shared operation of every condition: append it to the event list of the running operation
and set its sticky bit; nothing else changes and the operation goes on (R10, R231, R243). -/
def raise (e : Event) (s : State) : State :=
  { s with evt := s.evt ||| evtBit e, out := { s.out with events := s.out.events ++ [e] } }

/-- `emit OUT`: present a frame on `out_frame` as one item (R10, R76). -/
def emit (f : List Byte) (s : State) : State :=
  { s with out := { s.out with frames := s.out.frames ++ [f] } }

/-- Return a value from the operation. -/
def answer (a : Answer) (s : State) : State :=
  { s with out := { s.out with answer := some a } }

/-- `BUF <- []` (R10). -/
def clearBuf (s : State) : State := { s with buf := [] }

/-- `BUF <- BUF ++ c` (R10, R133). -/
def appendBuf (c : List Byte) (s : State) : State := { s with buf := s.buf ++ c }

/-- `PEND <- t; AGE <- 0` (R203; with `t = 0`, R160, R206). -/
def setTag (t : Tag) (s : State) : State := { s with pend := t, age := 0 }

/-- `HOLD_V <- 0; HOLD_T <- 0; WAIT <- 0` (R203, R261). -/
def clearHold (s : State) : State := { s with holdV := false, holdT := 0, wait := 0 }

/-- `HOLD_V <- 1; HOLD_T <- t; WAIT <- 0` (R202). -/
def holdRequest (t : Tag) (s : State) : State := { s with holdV := true, holdT := t, wait := 0 }

/-- `x[i] <- v`: write `ST[i]` and set `STV[i]` (R10). -/
def writeSt (r : Setting) (v : W32) (s : State) : State :=
  { s with status := { s.status with st := s.status.st.set r ⟨v, true⟩ } }

/-- `CV[k] <- v` for `k` in `1..NCELL_MAX`: write `CV[k]` and set `CVV[k]` (R10). -/
def writeCv (k : Nat) (v : W16) (s : State) : State :=
  { s with status := { s.status with cv := s.status.cv.set (k - 1) ⟨v, true⟩ } }

/-- `CELL_SEEN <- 1; CELL_AGE <- 0` (R156). -/
def acceptCells (s : State) : State := { s with cellSeen := true, cellAge := 0 }

/-- The tag-clear rule: `if PEND == kind: PEND <- 0; AGE <- 0` (R103, R160). -/
def matchTag (kind : Tag) (s : State) : State := if s.pend = kind then setTag 0 s else s

/-- A FEED begins: what an overlapping STATUS_READ may still see (R70; log 4). -/
def markFeed (s : State) : State := { s with statusBefore := s.status }

/-- An operation begins: its port event leaves the inbox, and no output is presented yet (log 1, log 2). -/
def beginOp (rest : List PortEvent) (s : State) : State := { s with inbox := rest, out := Outputs.none }

end Sys2Proof.Machine
end

