-- ==== Sys2Proof/Machine/Frames.lean ====
section
/-! DEFINITION. The inbound frame kinds SETTINGS, CELLINFO, DEVICEINFO and their dispatch (42_frame_dispatch.md). -/

namespace Sys2Proof.Machine

/-- The eight writes of SETTINGS(F), in the order of the rule (R153, R154). -/
def decodeSettings (f : List Byte) (s : State) : State :=
  let o := s.params.off
  let s := writeSt .uvp (field32 f o.uvp) s
  let s := writeSt .uvpr (field32 f o.uvpr) s
  let s := writeSt .ovp (field32 f o.ovp) s
  let s := writeSt .ovpr (field32 f o.ovpr) s
  let s := writeSt .baltrig (field32 f o.baltrig) s
  let s := writeSt .pwroff (field32 f o.pwroff) s
  let s := writeSt .maxchg (field32 f o.maxchg) s
  writeSt .cellcnt (field32 f o.cellcnt) s

/-- `limited` (R155). -/
def limited (s : State) : Bool :=
  decide (s.cfgRefresh ≠ 0) && s.cellSeen && decide (s.cellAge.toNat < s.cfgRefresh.toNat)

/-- The cell loop: `for i in 0 .. n-1, in increasing order: CV[i+1] <- MemRead(6 + 2*i, 2)` (R156). -/
def decodeCells (f : List Byte) : Nat → State → State
  | 0, s => s
  | n + 1, s => writeCv (n + 1) (field16 f n) (decodeCells f n s)

/-- CELLINFO(F): rate limit, range refusal, then the decode and the tag-clear (R155 to R157, R160). -/
def decodeCellinfo (f : List Byte) (s : State) : State :=
  if limited s then raise (.rlm s.cellAge) s
  else
    let count := s.status.st.cellcnt.val
    if s.params.ncellMax < count.toNat then raise (.rng count) s
    else matchTag 2 (decodeCells f count.toNat (acceptCells s))

/-- DEVICEINFO(F): no payload byte is read (R158, R160). -/
def decodeDeviceinfo (s : State) : State := matchTag 3 s

/-- DISPATCH(F): the version gate first, then the kind byte (R150 to R152, R159). -/
def dispatch (f : List Byte) (s : State) : State :=
  if s.cfgProto ≠ s.params.protoImpl then raise (.ver s.cfgProto) s
  else
    match decodeKind (byteAt f Config.kindOff) with
    | .ok .settings => decodeSettings f s
    | .ok .cellinfo => decodeCellinfo f s
    | .ok .deviceinfo => decodeDeviceinfo s
    | .error _ => raise (.unk (byteAt f Config.kindOff)) s

/-- SETTINGS (R153). A frame shorter than 300 bytes is outside MemRead's domain (R10, R150; log 6). -/
def execSettings (f : List Byte) (s : State) : Host.Outcome State Fault Refusal :=
  if f.length < Config.minFrame then .fault .frameTooShort else .next (decodeSettings f s)

/-- CELLINFO (R156). A frame shorter than 300 bytes is outside MemRead's domain (R10, R150; log 6). -/
def execCellinfo (f : List Byte) (s : State) : Host.Outcome State Fault Refusal :=
  if f.length < Config.minFrame then .fault .frameTooShort else .next (decodeCellinfo f s)

/-- DEVICEINFO (R158). -/
def execDeviceinfo (_f : List Byte) (s : State) : Host.Outcome State Fault Refusal :=
  .next (decodeDeviceinfo s)

end Sys2Proof.Machine
end

