-- ==== Sys2Proof/Machine/Assembler.lean ====
section
/-! DEFINITION. The frame synchroniser and assembler: FEED (41_frame_assembler.md). -/

namespace Sys2Proof.Machine

/-- Step 1, overflow test, on the buffer before the chunk is added, strict (R131, R232). -/
def feedOverflow (s : State) : State :=
  if Config.maxFrame < s.buf.length then raise (.ovf s.buf.length) (clearBuf s) else s

/-- Step 2, start-marker test, on the chunk (R132, R137). -/
def feedMarker (c : List Byte) (s : State) : State := if beginsWithMarker c then clearBuf s else s

/-- Step 4, completeness and checksum: dispatch and clear, or clear and raise CSF (R134 to R136, R233). -/
def feedEvaluate (s : State) : State :=
  if s.buf.length < Config.minFrame then s
  else
    let computed := checksum s.buf Config.ckOff
    let stored := byteAt s.buf Config.ckOff
    if computed = stored then clearBuf (dispatch s.buf s)
    else raise (.csf computed stored) (clearBuf s)

/-- The four steps of FEED(c) (R130). -/
def feedChunk (c : List Byte) (s : State) : State :=
  feedEvaluate (appendBuf c (feedMarker c (feedOverflow (markFeed s))))

/-- FEED (R130): enabled in every state. -/
def execFeed (c : List Byte) (s : State) : Host.Outcome State Fault Refusal := .next (feedChunk c s)

end Sys2Proof.Machine
end

