-- ==== Sys2Proof/Machine/Correlator.lean ====
section
/-! DEFINITION. The command encoder as commands and the request correlator: WRITE_REG, the two requests, CMD, TICK
(43_command_encoder.md, 44_correlator.md). -/

namespace Sys2Proof.Machine

/-- The frame of a request with tag 2 (R182). -/
def cellRequestFrame : List Byte := buildFrame Config.addrReqCellInfo 0 Value.zero

/-- The frame of a request with tag 3 (R183). -/
def deviceRequestFrame (p : Params) : List Byte := buildFrame p.addrReqDeviceInfo 0 Value.zero

/-- The two emissions of LAUNCH(t): one for tag 2, one for tag 3, none for another tag (R203; log 15). -/
def emitRequest (t : Tag) (s : State) : State :=
  if t = 2 then emit cellRequestFrame s
  else if t = 3 then emit (deviceRequestFrame s.params) s
  else s

/-- LAUNCH(t) (R203, R238). -/
def launch (t : Tag) (s : State) : State :=
  let s := if s.pend ≠ 0 then raise (.wfo s.pend) s else s
  emitRequest t (clearHold (setTag t s))

/-- REQUEST(t) (R202). -/
def request (t : Tag) (s : State) : State :=
  if s.pend = 0 ∨ s.cfgTmo = 0 then launch t s else holdRequest t s

/-- A command is accepted only when `cmd_ready`; otherwise nothing happens (R41, R201). -/
def accept (act : State → State) (s : State) : State := if s.cmdReady then act s else s

/-- WRITE_REG(a, l, v): emit the frame, touch nothing else (R181). -/
def writeRegister (a l : Byte) (v : Value) (s : State) : State := emit (buildFrame a l v) s

/-- CMD(op, a, l, v) after acceptance; `op` 3 is reserved and does nothing (R106, R201). -/
def command (w : CmdWord) (s : State) : State :=
  if w.op = 0 then writeRegister w.addr w.len w.val s
  else if w.op = 1 then request 2 s
  else if w.op = 2 then request 3 s
  else s

/-- TICK step 1 (R205). -/
def tickCellAge (s : State) : State := if s.cellSeen then { s with cellAge := satInc s.cellAge } else s

/-- `AGE <- min(255, AGE + 1)` (R204). -/
def incAge (s : State) : State := { s with age := satInc s.age }

/-- `WAIT <- min(255, WAIT + 1)` (R204). -/
def incWait (s : State) : State := { s with wait := satInc s.wait }

/-- TICK step 2, request timeout (R206, R235). -/
def tickTimeout (s : State) : State :=
  if s.pend = 0 then s
  else
    let s := incAge s
    if s.cfgTmo.toNat ≤ s.age.toNat then raise (.tmo s.pend) (setTag 0 s) else s

/-- TICK step 3, poll of the held request, after step 2 (R207). -/
def tickPoll (s : State) : State :=
  if s.holdV then
    let s := incWait s
    if s.pend = 0 ∨ s.cfgTmo.toNat ≤ s.wait.toNat then launch s.holdT s else s
  else s

/-- The three steps of TICK (R204). -/
def tickUnit (s : State) : State := tickPoll (tickTimeout (tickCellAge s))

/-- WRITE_REG (R181, R41). -/
def execWriteReg (a l : Byte) (v : Value) (s : State) : Host.Outcome State Fault Refusal :=
  .next (accept (writeRegister a l v) s)

/-- REQ_CELL_INFO: the accepted command runs REQUEST(2) (R111, R182, R201, R202; log 16). -/
def execReqCellInfo (s : State) : Host.Outcome State Fault Refusal := .next (accept (request 2) s)

/-- REQ_DEVICE_INFO: the accepted command runs REQUEST(3) (R111, R183, R201, R202; log 16). -/
def execReqDeviceInfo (s : State) : Host.Outcome State Fault Refusal := .next (accept (request 3) s)

/-- CMD (R201). -/
def execCmd (w : CmdWord) (s : State) : Host.Outcome State Fault Refusal := .next (accept (command w) s)

/-- TICK (R204): enabled in every state. -/
def execTick (s : State) : Host.Outcome State Fault Refusal := .next (tickUnit s)

end Sys2Proof.Machine
end

