-- ==== Sys2Proof/Machine/System.lean ====
section
/-! DEFINITION. The system operations RESET, SESSION_RESET, CFG_WRITE, STATUS_READ (60_exceptions.md section 8,
70_reset_and_hazards.md) and the internal functions CHECKSUM and BUILD run by themselves (R120, R180). -/

namespace Sys2Proof.Machine

/-- RESET: every register of R20 at its reset value (R260). The parameters, the waiting port events and the serial
number of torn reads are no registers and stay; no FEED precedes, so none can be overlapped (log 14). -/
def resetEngine (s : State) : State :=
  { State.resetWith s.params with serial := s.serial, inbox := s.inbox, out := s.out }

/-- SESSION_RESET: buffer and correlator (R261). -/
def resetSession (s : State) : State := clearHold (setTag 0 (clearBuf s))

/-- CFG_WRITE(r, v): `CFG_r <- v` (R250). -/
def writeCfg (c : CfgWrite) (s : State) : State :=
  match c with
  | .proto v => { s with cfgProto := v }
  | .refresh v => { s with cfgRefresh := v }
  | .tmo v => { s with cfgTmo := v }

/-- One settings register as an overlapping read returns it: whole, from before or after the FEED (R65, R70). -/
def tornSetting (s : State) (r : Setting) : SettingReg :=
  if Config.tornSetting s.serial r.index then s.statusBefore.st.get r else s.status.st.get r

/-- One cell register as an overlapping read returns it: whole, from before or after the FEED (R65, R70). -/
def tornCell (s : State) (k : Nat) : CellReg :=
  if Config.tornCell s.serial k then s.statusBefore.cell k else s.status.cell k

/-- The tuple an overlapping STATUS_READ returns (R70 item 3, R251; log 4). -/
def tornStatus (s : State) : StatusModel where
  st := ⟨tornSetting s .uvp, tornSetting s .uvpr, tornSetting s .ovp, tornSetting s .ovpr, tornSetting s .baltrig,
    tornSetting s .pwroff, tornSetting s .maxchg, tornSetting s .cellcnt⟩
  cv := (List.range s.params.ncellMax).map fun i => tornCell s (i + 1)

/-- STATUS_READ: the current tuple, or under overlap a mixture (R70, R251). -/
def readStatus (overlap : Bool) (s : State) : State :=
  if overlap then { answer (.status (tornStatus s)) s with serial := s.serial + 1 }
  else answer (.status s.status) s

/-- RESET (R260). -/
def execReset (s : State) : Host.Outcome State Fault Refusal := .next (resetEngine s)

/-- SESSION_RESET (R261). -/
def execSessionReset (s : State) : Host.Outcome State Fault Refusal := .next (resetSession s)

/-- CFG_WRITE (R250). -/
def execCfgWrite (c : CfgWrite) (s : State) : Host.Outcome State Fault Refusal := .next (writeCfg c s)

/-- STATUS_READ (R251). -/
def execStatusRead (overlap : Bool) (s : State) : Host.Outcome State Fault Refusal :=
  .next (readStatus overlap s)

/-- CHECKSUM(s, n), a pure function: its value is returned and no state changes (R120; log 5). -/
def execChecksum (bytes : List Byte) (n : Nat) (s : State) : Host.Outcome State Fault Refusal :=
  if bytes.length < n then .fault .checksumRange else .next (answer (.byte (checksum bytes n)) s)

/-- BUILD(a, l, v), a pure function: its frame is returned and no state changes (R180; log 5). -/
def execBuild (a l : Byte) (v : Value) (s : State) : Host.Outcome State Fault Refusal :=
  .next (answer (.frame (buildFrame a l v)) s)

end Sys2Proof.Machine
end

