-- ==== Sys2Proof/Machine/Dispatch.lean ====
section
/-! DEFINITION. One arm per constructor of Instr, each one direct call of its meaning. -/

namespace Sys2Proof.Machine

/-- The meaning of an instruction. -/
def exec (i : Instr) (s : State) : Host.Outcome State Fault Refusal :=
  match i with
  | .settings f => Sys2Proof.Machine.execSettings f s
  | .cellinfo f => Sys2Proof.Machine.execCellinfo f s
  | .deviceinfo f => Sys2Proof.Machine.execDeviceinfo f s
  | .writeReg a l v => Sys2Proof.Machine.execWriteReg a l v s
  | .reqCellInfo => Sys2Proof.Machine.execReqCellInfo s
  | .reqDeviceInfo => Sys2Proof.Machine.execReqDeviceInfo s
  | .feed c => Sys2Proof.Machine.execFeed c s
  | .tick => Sys2Proof.Machine.execTick s
  | .cmd w => Sys2Proof.Machine.execCmd w s
  | .sessionReset => Sys2Proof.Machine.execSessionReset s
  | .reset => Sys2Proof.Machine.execReset s
  | .statusRead o => Sys2Proof.Machine.execStatusRead o s
  | .cfgWrite c => Sys2Proof.Machine.execCfgWrite c s
  | .checksum b n => Sys2Proof.Machine.execChecksum b n s
  | .build a l v => Sys2Proof.Machine.execBuild a l v s

end Sys2Proof.Machine
end

