-- ==== Sys2Proof/Machine/Ports.lean ====
section
/-! DEFINITION. The ports: taking the next event, the order of events that fall in one cycle (R72), the monitor port
(R40), and how an instruction of the opcode table comes to be the next step. -/

namespace Sys2Proof.Machine

/-- Take the oldest port event and decode it; `none` when no port has an event (R70, R247; log 1). -/
def fetch (s : State) : Option (Instr × State) :=
  match s.inbox with
  | [] => none
  | e :: rest => some (decodePort e, beginOp rest s)

/-- The environment presents port events, in the order they take effect (R70, R71). -/
def present (es : List PortEvent) (s : State) : State := { s with inbox := s.inbox ++ es }

/-- The port events that fall in one hardware clock cycle (R72). -/
structure Cycle where
  rst : Bool
  sessionReset : Bool
  cfg : Option CfgWrite
  chunk : Option (List Byte)
  tick : Bool
  cmd : Option (BitVec 50)
  status : Option Bool
deriving DecidableEq, Repr

/-- The fixed order of R72: RESET, SESSION_RESET, CFG_WRITE, FEED, TICK, CMD, STATUS_READ; RESET makes the others of
that cycle void. -/
def cycleOrder (c : Cycle) : List PortEvent :=
  if c.rst then [.rst]
  else
    (if c.sessionReset then [.sessionReset] else []) ++ (c.cfg.map PortEvent.cfg).toList
      ++ (c.chunk.map PortEvent.inChunk).toList ++ (if c.tick then [.tick] else [])
      ++ (c.cmd.map PortEvent.cmd).toList ++ (c.status.map PortEvent.status).toList

/-- The monitor port (R40). -/
structure Monitor where
  pend : Tag
  len : Nat
  evt : BitVec 8
  cmdReady : Bool
deriving DecidableEq, Repr

/-- What the monitor port shows (R40). -/
def monitor (s : State) : Monitor := ⟨s.pend, s.len, s.evt, s.cmdReady⟩

/-- Everything it takes for the very next step to run this instruction (log 8): an inbound frame is fed whole to an
empty buffer with decoding on (R135, R151); an outbound form is asked for by its command word while `cmd_ready`
(R101, R41); an operation's event is at its port. CHECKSUM and BUILD no port triggers (R108). -/
def arrange (i : Instr) (s : State) : State :=
  match i with
  | .settings f => { s with buf := [], cfgProto := s.params.protoImpl, inbox := .inChunk f :: s.inbox }
  | .cellinfo f => { s with buf := [], cfgProto := s.params.protoImpl, inbox := .inChunk f :: s.inbox }
  | .deviceinfo f => { s with buf := [], cfgProto := s.params.protoImpl, inbox := .inChunk f :: s.inbox }
  | .writeReg a l v => { clearHold s with inbox := .cmd (wordWriteReg a l v) :: s.inbox }
  | .reqCellInfo => { clearHold s with inbox := .cmd wordReqCellInfo :: s.inbox }
  | .reqDeviceInfo => { clearHold s with inbox := .cmd wordReqDeviceInfo :: s.inbox }
  | .feed c => { s with inbox := .inChunk c :: s.inbox }
  | .tick => { s with inbox := .tick :: s.inbox }
  | .cmd w => { clearHold s with inbox := .cmd (encodeCmdWord w) :: s.inbox }
  | .sessionReset => { s with inbox := .sessionReset :: s.inbox }
  | .reset => { s with inbox := .rst :: s.inbox }
  | .statusRead o => { s with inbox := .status o :: s.inbox }
  | .cfgWrite c => { s with inbox := .cfg c :: s.inbox }
  | .checksum _ _ => s
  | .build _ _ _ => s

end Sys2Proof.Machine
end

