-- ==== Sys2Proof/Machine/Step.lean ====
section
/-! DEFINITION. One step is one operation: take the oldest port event and execute it; with none, the engine is idle
(R70, R247). -/

namespace Sys2Proof.Machine

/-- One step. -/
def step (s : State) : Host.Outcome State Fault Refusal :=
  match fetch s with
  | none => .next s
  | some (i, s') => exec i s'

/-- `s` with the instruction of a table word placed where the next step takes it (log 8). -/
def State.withFetchWord (s : State) (nbits w : Nat) : State :=
  match decodeTableWord nbits w with
  | none => s
  | some i => arrange i s

end Sys2Proof.Machine
end

