-- ==== Sys2Proof/Safety.lean ====
section
/-! DEFINITION. What counts as a safe state and a safe run, and the terms the statements use: the invariant at rest,
runs of several instructions, iterated TICKs, what an operation presents. -/

namespace Sys2Proof.Machine

/-- The invariant of a status model: the file has its capacity (R23), and a register whose valid bit is clear holds 0
(R29, R50). -/
structure StatusModel.Inv (p : Params) (m : StatusModel) : Prop where
  /-- `CV[1..NCELL_MAX]` (R23). -/
  capacity : m.cv.length = p.ncellMax
  /-- "The value of a register whose valid bit is 0 is 0 by reset" (R29), for ST. -/
  invalidSetting : ∀ r, (m.st.get r).valid = false → (m.st.get r).val = 0
  /-- The same for CV. -/
  invalidCell : ∀ c ∈ m.cv, c.valid = false → c.val = 0

/-- The invariant at rest: what holds between operations in every state reachable from RESET. -/
structure State.Inv (s : State) : Prop where
  /-- `0 <= LEN <= 299` (R27). -/
  len : s.buf.length ≤ 299
  /-- PEND is 0, 2 or 3: 1 is "never written by any rule" (R30). -/
  pendLegal : s.pend ≠ 1
  /-- "AGE is 0 whenever PEND = 0" (R31). -/
  ageIdle : s.pend = 0 → s.age = 0
  /-- "HOLD_T ... value 2 or 3 when HOLD_V = 1" (R32). -/
  holdTag : s.holdV = true → s.holdT = 2 ∨ s.holdT = 3
  /-- "When HOLD_V = 0 the values of HOLD_T and WAIT are 0" (R32). -/
  holdClear : s.holdV = false → s.holdT = 0 ∧ s.wait = 0
  /-- "`AGE >= WAIT` holds ... in which a request is both pending and held" (R208). -/
  waitLeAge : s.pend ≠ 0 → s.holdV = true → s.wait.toNat ≤ s.age.toNat
  /-- CELL_AGE "does not run before the first accepted frame" (R205). -/
  unseenAge : s.cellSeen = false → s.cellAge = 0
  /-- The status registers (R23, R29). -/
  status : s.status.Inv s.params
  /-- The status registers an overlapping reader may still see (log 4). -/
  statusBefore : s.statusBefore.Inv s.params

/-- An outcome is safe when the machine goes on. -/
def SafeOutcome (o : Host.Outcome State Fault Refusal) : Prop := ∃ t, o = .next t

/-- A state is safe when its step goes on into a state at rest. -/
def SafeStep (s : State) : Prop := ∃ t, step s = .next t ∧ t.Inv

/-- Several instructions one after the other, stopping at the first that does not go on. -/
def runAll : List Instr → State → Host.Outcome State Fault Refusal
  | [], s => .next s
  | i :: is, s =>
    match exec i s with
    | .next t => runAll is t
    | .fault r => .fault r
    | .refused r => .refused r

/-- `n` TICKs with nothing between them. -/
def ticks (n : Nat) (s : State) : Host.Outcome State Fault Refusal := runAll (List.replicate n .tick) s

/-- The EVT bits of a list of conditions. -/
def evtBits (es : List Event) : BitVec 8 := es.foldl (fun b e => b ||| evtBit e) 0

/-- The buffer a FEED of `c` evaluates, after its steps 1 to 3: the chunk alone when it begins with the marker or when
the buffer exceeded 320 bytes, else the chunk after what was buffered (R131 to R133). -/
def fedBuffer (c : List Byte) (s : State) : List Byte :=
  if c.take 4 = [0x55, 0xAA, 0xEB, 0x90] ∨ 320 < s.buf.length then c else s.buf ++ c

/-- The state at a FEED's step 4, but for BUF: OVF is reported when the buffer exceeded 320 bytes (R131, R232), and
the status registers are remembered for an overlapping reader (R70; log 4). -/
def fedState (s : State) : State :=
  { s with
    statusBefore := s.status
    evt := if 320 < s.buf.length then s.evt ||| 0x01 else s.evt
    out := { s.out with
      events := if 320 < s.buf.length then s.out.events ++ [.ovf s.buf.length] else s.out.events } }

/-- FEED of `c` dispatches a frame of kind `k`: the buffer it evaluates is complete and valid, the protocol version is
the implemented one, and byte 4 is `k` (R134, R135, R151, R152). -/
def FeedsFrame (k : Byte) (c : List Byte) (s : State) : Prop :=
  300 ≤ (fedBuffer c s).length ∧ checksum (fedBuffer c s) 299 = byteAt (fedBuffer c s) 299
    ∧ s.cfgProto = s.params.protoImpl ∧ byteAt (fedBuffer c s) 4 = k

/-- A CELLINFO frame would be decoded: neither rate-limited (R155) nor out of range (R157). -/
def AcceptsCells (s : State) : Prop :=
  ¬ (s.cfgRefresh ≠ 0 ∧ s.cellSeen = true ∧ s.cellAge.toNat < s.cfgRefresh.toNat)
    ∧ s.status.st.cellcnt.val.toNat ≤ s.params.ncellMax

/-- A request may be launched without a wait (R202). -/
def LaunchesAtOnce (s : State) : Prop := s.holdV = false ∧ (s.pend = 0 ∨ s.cfgTmo = 0)

/-- In this TICK the correlator is Idle after step 2: it was, or the timeout fires (R206). -/
def IdleAfterTimeout (s : State) : Prop := s.pend = 0 ∨ s.cfgTmo.toNat ≤ min 255 (s.age.toNat + 1)

/-- The rows of R209, each with the condition its rule gives: `PendRow i s p` says that instruction `i` sets PEND to
`p` in state `s`. -/
inductive PendRow : Instr → State → Tag → Prop where
  /-- LAUNCH(2) at once, by REQ_CELL_INFO (R202, R203). -/
  | cellInfoRow (s : State) (h : LaunchesAtOnce s) : PendRow .reqCellInfo s 2
  /-- LAUNCH(2) at once, by the command word with `cmd_op` 1 (R201). -/
  | cellInfoCmd (s : State) (w : CmdWord) (h : LaunchesAtOnce s) (hw : w.op = 1) : PendRow (.cmd w) s 2
  /-- LAUNCH(3) at once, by REQ_DEVICE_INFO (R202, R203). -/
  | deviceInfoRow (s : State) (h : LaunchesAtOnce s) : PendRow .reqDeviceInfo s 3
  /-- LAUNCH(3) at once, by the command word with `cmd_op` 2 (R201). -/
  | deviceInfoCmd (s : State) (w : CmdWord) (h : LaunchesAtOnce s) (hw : w.op = 2) : PendRow (.cmd w) s 3
  /-- LAUNCH(HOLD_T) in a TICK (R207). -/
  | heldLaunch (s : State) (hv : s.holdV = true) (h : IdleAfterTimeout s) : PendRow .tick s s.holdT
  /-- The timeout, with nothing held that would be launched in the same TICK (R206). -/
  | timeout (s : State) (hv : s.holdV = false) (hp : s.pend ≠ 0) (h : IdleAfterTimeout s) : PendRow .tick s 0
  /-- A CELLINFO routine run by itself decodes its frame while a cell-info request is pending (R156, R160). -/
  | cellInfoDecoded (s : State) (f : List Byte) (hf : 300 ≤ f.length) (hp : s.pend = 2) (h : AcceptsCells s) :
      PendRow (.cellinfo f) s 0
  /-- A FEED decodes a CELLINFO frame while a cell-info request is pending (R156, R160). -/
  | cellInfoFed (s : State) (c : List Byte) (hc : FeedsFrame 2 c s) (hp : s.pend = 2) (h : AcceptsCells s) :
      PendRow (.feed c) s 0
  /-- A DEVICEINFO routine run by itself while a device-info request is pending (R158, R160). -/
  | deviceInfoDecoded (s : State) (f : List Byte) (hp : s.pend = 3) : PendRow (.deviceinfo f) s 0
  /-- A FEED decodes a DEVICEINFO frame while a device-info request is pending (R158, R160). -/
  | deviceInfoFed (s : State) (c : List Byte) (hc : FeedsFrame 3 c s) (hp : s.pend = 3) : PendRow (.feed c) s 0
  /-- SESSION_RESET (R261). -/
  | sessionReset (s : State) : PendRow .sessionReset s 0
  /-- RESET (R260). -/
  | reset (s : State) : PendRow .reset s 0

/-- The place of a port event in the order of R72, RESET first. -/
def placeInCycle : PortEvent → Nat
  | .rst => 0
  | .sessionReset => 1
  | .cfg _ => 2
  | .inChunk _ => 3
  | .tick => 4
  | .cmd _ => 5
  | .status _ => 6

/-- The port event falls in the cycle. -/
def FallsIn (x : Cycle) : PortEvent → Prop
  | .rst => x.rst = true
  | .sessionReset => x.sessionReset = true
  | .cfg c => x.cfg = some c
  | .inChunk c => x.chunk = some c
  | .tick => x.tick = true
  | .cmd w => x.cmd = some w
  | .status o => x.status = some o

/-- CELL_AGE after a TICK (R205). -/
def tickedCellAge (s : State) : W16 :=
  if s.cellSeen then BitVec.ofNat 16 (min 65535 (s.cellAge.toNat + 1)) else s.cellAge

/-- The 20 bytes a request with tag `t` puts on `out_frame` (R182, R183). -/
def requestBytes (p : Params) (t : Tag) : List Byte :=
  let a : Byte := if t = 2 then 0x96 else p.addrReqDeviceInfo
  [0xAA, 0x55, 0x90, 0xEB, a, 0, 0, 0, 0, 0, 0, 0, 0, 0, 0, 0, 0, 0, 0, 0x7A + a]

end Sys2Proof.Machine
end

