-- ==== Sys2Proof/Certificates/Slice0/Obligations.lean ====
section
/-! DEFINITION. The statements for the provers, one `def Obligations.<Name> : Prop` each, from the numbered rules of
spec/. A next state is written as a record update: every field it does not name is unchanged, which is the frame. -/

open Sys2Proof Sys2Proof.Machine

/-! ### The checksum (40_checksum.md) -/

/-- R120: CHECKSUM(s, n) is the sum of the first n bytes mod 256, whatever state it runs in; the sum may be kept in 8
bits, the order does not matter, bytes from n on do not take part, and nothing but the returned value changes. (That
the internal function runs by itself and answers in `out.answer` is the model's choice, log 5.) -/
def Obligations.ChecksumIsByteSum : Prop :=
  ∀ (v : List Byte) (n : Nat) (s : State), n ≤ v.length →
    ∃ b : Byte,
      exec (.checksum v n) s = .next { s with out := { s.out with answer := some (.byte b) } }
        ∧ b.toNat = ((v.take n).map BitVec.toNat).sum % 256
        ∧ b = (v.take n).foldl (· + ·) 0
        ∧ (∀ w : List Byte, n ≤ w.length → (w.take n).Perm (v.take n) →
            exec (.checksum w n) s = exec (.checksum v n) s)

/-- R123 (derived there): a change of a single byte among offsets 0..299 of a valid frame is always detected: the fed
frame raises CSF and no register of the StatusModel, the correlator or the rate limiter changes. -/
def Obligations.SingleByteChangeIsDetected : Prop :=
  ∀ (f : List Byte) (i : Nat) (b : Byte) (s : State),
    300 ≤ f.length → i < 300 → b ≠ byteAt f i → checksum f 299 = byteAt f 299 → s.buf = [] →
      ∃ computed stored : Byte, computed ≠ stored ∧
        exec (.feed (f.set i b)) s = .next { s with
          statusBefore := s.status
          evt := s.evt ||| 0x02
          out := { s.out with events := s.out.events ++ [.csf computed stored] } }

/-- R123 (derived there): two byte changes among offsets 0..298 whose differences cancel modulo 256 are not detected:
the checksum is the same. -/
def Obligations.CancellingChangesAreNotDetected : Prop :=
  ∀ (f : List Byte) (i j : Nat) (b c : Byte), i < 299 → j < 299 → i ≠ j → 299 ≤ f.length →
    b + c = byteAt f i + byteAt f j → checksum ((f.set i b).set j c) 299 = checksum f 299

/-! ### The outbound frame (43_command_encoder.md) -/

/-- R180: BUILD(a, l, v) returns the 20 bytes of format OUT, byte by byte, with the checksum of offsets 0..18 at offset
19, and changes nothing. (That the internal function runs by itself and answers in `out.answer` is the model's choice,
log 5.) -/
def Obligations.BuildLaysOutFrame : Prop :=
  ∀ (a l : Byte) (v : Value) (s : State),
    ∃ F : List Byte,
      exec (.build a l v) s = .next { s with out := { s.out with answer := some (.frame F) } }
        ∧ F = [0xAA, 0x55, 0x90, 0xEB, a, l, v.v0, v.v1, v.v2, v.v3, 0, 0, 0, 0, 0, 0, 0, 0, 0, byteAt F 19]
        ∧ byteAt F 19 = checksum F 19
        ∧ (byteAt F 19).toNat
            = (0x7A + a.toNat + l.toNat + v.v0.toNat + v.v1.toNat + v.v2.toNat + v.v3.toNat) % 256

/-- R181: an accepted WRITE_REG emits BUILD(a, l, v) and writes no state, whatever the address and whatever is pending.
Not accepted (cmd_ready = 0) it does nothing (R41). -/
def Obligations.WriteRegEmitsItsFrame : Prop :=
  ∀ (a l : Byte) (v : Value) (s : State),
    (s.holdV = false →
      exec (.writeReg a l v) s
        = .next { s with out := { s.out with frames := s.out.frames ++ [buildFrame a l v] } })
    ∧ (s.holdV = true → exec (.writeReg a l v) s = .next s)

/-- R202, R203, R182: an accepted REQ_CELL_INFO. With nothing pending, or a bound of 0, it is launched at once: the tag
becomes 2, AGE and the hold registers 0, the frame goes out, and WFO with the abandoned tag is raised when a request
was pending. Otherwise it is held. Not accepted it does nothing (R41). (R201 ties the command REQ_CELL_INFO to
REQUEST(2); that the row REQ_CELL_INFO means that command, under cmd_ready, is the model's reading, log 16.) -/
def Obligations.CellInfoRequest : Prop :=
  ∀ s : State,
    (s.holdV = false → (s.pend = 0 ∨ s.cfgTmo = 0) →
      exec .reqCellInfo s = .next { s with
        pend := 2, age := 0, holdV := false, holdT := 0, wait := 0
        evt := if s.pend = 0 then s.evt else s.evt ||| 0x40
        out := { s.out with
          frames := s.out.frames
            ++ [[0xAA, 0x55, 0x90, 0xEB, 0x96, 0, 0, 0, 0, 0, 0, 0, 0, 0, 0, 0, 0, 0, 0, 0x10]]
          events := if s.pend = 0 then s.out.events else s.out.events ++ [.wfo s.pend] } })
    ∧ (s.holdV = false → s.pend ≠ 0 → s.cfgTmo ≠ 0 →
      exec .reqCellInfo s = .next { s with holdV := true, holdT := 2, wait := 0 })
    ∧ (s.holdV = true → exec .reqCellInfo s = .next s)

/-- R202, R203, R183: an accepted REQ_DEVICE_INFO, the same with tag 3 and the address ADDR_REQ_DEVICE_INFO, a
parameter. (R201 ties the command REQ_DEVICE_INFO to REQUEST(3); that the row REQ_DEVICE_INFO means that command, under
cmd_ready, is the model's reading, log 16.) -/
def Obligations.DeviceInfoRequest : Prop :=
  ∀ s : State,
    (s.holdV = false → (s.pend = 0 ∨ s.cfgTmo = 0) →
      exec .reqDeviceInfo s = .next { s with
        pend := 3, age := 0, holdV := false, holdT := 0, wait := 0
        evt := if s.pend = 0 then s.evt else s.evt ||| 0x40
        out := { s.out with
          frames := s.out.frames
            ++ [[0xAA, 0x55, 0x90, 0xEB, s.params.addrReqDeviceInfo, 0, 0, 0, 0, 0, 0, 0, 0, 0, 0, 0, 0, 0, 0,
                  0x7A + s.params.addrReqDeviceInfo]]
          events := if s.pend = 0 then s.out.events else s.out.events ++ [.wfo s.pend] } })
    ∧ (s.holdV = false → s.pend ≠ 0 → s.cfgTmo ≠ 0 →
      exec .reqDeviceInfo s = .next { s with holdV := true, holdT := 3, wait := 0 })
    ∧ (s.holdV = true → exec .reqDeviceInfo s = .next s)

/-- R201, R106: an accepted command word does what its `cmd_op` selects: WRITE_REG, REQ_CELL_INFO, REQ_DEVICE_INFO, and
3 nothing; a word presented while cmd_ready = 0 does nothing (R41). -/
def Obligations.CommandWordSelects : Prop :=
  ∀ (w : CmdWord) (s : State),
    (s.holdV = false → ∃ t, exec (.cmd w) s = .next t
      ∧ (w.op = 0 → exec (.writeReg w.addr w.len w.val) s = .next t)
      ∧ (w.op = 1 → exec .reqCellInfo s = .next t)
      ∧ (w.op = 2 → exec .reqDeviceInfo s = .next t)
      ∧ (w.op = 3 → t = s))
    ∧ (s.holdV = true → exec (.cmd w) s = .next s)

/-- R184 (derived there): a frame leaves the engine only in an accepted command or in the TICK that launches a held
request, at most one per operation, and every one is BUILD's. -/
def Obligations.EmittedFramesAreBuilt : Prop :=
  ∀ (i : Instr) (s t : State), exec i s = .next t →
    t.out.frames = s.out.frames
    ∨ ∃ a l v, t.out.frames = s.out.frames ++ [buildFrame a l v]
        ∧ ((i = .tick ∧ s.holdV = true)
          ∨ (s.holdV = false ∧ (i = .writeReg a l v ∨ i = .reqCellInfo ∨ i = .reqDeviceInfo ∨ ∃ w, i = .cmd w)))

/-- R185 (derived there): a frame the engine built, fed back to a buffer that stays below 300 bytes, is appended like
any other 20 bytes. -/
def Obligations.OwnFrameIsPlainBytes : Prop :=
  ∀ (a l : Byte) (v : Value) (s : State), s.buf.length + 20 < 300 →
    exec (.feed (buildFrame a l v)) s
      = .next { s with buf := s.buf ++ buildFrame a l v, statusBefore := s.status }

/-! ### FEED (41_frame_assembler.md) -/

/-- R131 to R134, R137: a FEED that leaves fewer than 300 bytes buffered evaluates nothing. The buffer restarts when the
chunk begins with the marker or the buffer exceeded 320 bytes (OVF), and else grows by the chunk. -/
def Obligations.FeedBelowThreeHundred : Prop :=
  ∀ (c : List Byte) (s : State), (fedBuffer c s).length < 300 →
    exec (.feed c) s = .next { fedState s with buf := fedBuffer c s }

/-- R136, R233: a complete buffer whose checksum does not match is discarded; CSF with both bytes is raised and no
status, correlator or rate-limiter register changes. -/
def Obligations.FeedMismatchDiscards : Prop :=
  ∀ (c : List Byte) (s : State), 300 ≤ (fedBuffer c s).length →
    checksum (fedBuffer c s) 299 ≠ byteAt (fedBuffer c s) 299 →
      exec (.feed c) s = .next { fedState s with
        buf := []
        evt := (fedState s).evt ||| 0x02
        out := { (fedState s).out with
          events := (fedState s).out.events
            ++ [.csf (checksum (fedBuffer c s) 299) (byteAt (fedBuffer c s) 299)] } }

/-- R135, R150 to R152, R159: a complete buffer whose checksum matches is dispatched and cleared. Under another protocol
version it raises VER only; else the kind byte selects SETTINGS, CELLINFO or DEVICEINFO, and any other kind raises
UNK only. -/
def Obligations.FeedMatchDispatches : Prop :=
  ∀ (c : List Byte) (s : State), 300 ≤ (fedBuffer c s).length →
    checksum (fedBuffer c s) 299 = byteAt (fedBuffer c s) 299 →
      ∃ t, exec (.feed c) s = .next { t with buf := [] }
        ∧ (s.cfgProto ≠ s.params.protoImpl →
            t = { fedState s with
              buf := fedBuffer c s
              evt := (fedState s).evt ||| 0x04
              out := { (fedState s).out with events := (fedState s).out.events ++ [.ver s.cfgProto] } })
        ∧ (s.cfgProto = s.params.protoImpl →
            (byteAt (fedBuffer c s) 4 = 1 →
              exec (.settings (fedBuffer c s)) { fedState s with buf := fedBuffer c s } = .next t)
            ∧ (byteAt (fedBuffer c s) 4 = 2 →
              exec (.cellinfo (fedBuffer c s)) { fedState s with buf := fedBuffer c s } = .next t)
            ∧ (byteAt (fedBuffer c s) 4 = 3 →
              exec (.deviceinfo (fedBuffer c s)) { fedState s with buf := fedBuffer c s } = .next t)
            ∧ (byteAt (fedBuffer c s) 4 ≠ 1 → byteAt (fedBuffer c s) 4 ≠ 2 → byteAt (fedBuffer c s) 4 ≠ 3 →
              t = { fedState s with
                buf := fedBuffer c s
                evt := (fedState s).evt ||| 0x10
                out := { (fedState s).out with
                  events := (fedState s).out.events ++ [.unk (byteAt (fedBuffer c s) 4)] } }))

/-- R21: FEED sets LEN to 0, LEN + n or n; SESSION_RESET and RESET set it to 0; no other operation touches a byte of
BUF. -/
def Obligations.BufferWriters : Prop :=
  ∀ (i : Instr) (s t : State), exec i s = .next t →
    (∃ c, i = .feed c ∧ (t.len = 0 ∨ t.len = s.len + c.length ∨ t.len = c.length))
    ∨ ((i = .sessionReset ∨ i = .reset) ∧ t.buf = [])
    ∨ t.buf = s.buf

/-- R140, R27 (derived there): after every FEED, in every state, at most 299 bytes are buffered; and from a buffer of at
most 320 bytes OVF is not raised. -/
def Obligations.AfterFeedAtRest : Prop :=
  ∀ (c : List Byte) (s : State), ∃ (t : State) (es : List Event),
    exec (.feed c) s = .next t ∧ t.buf.length ≤ 299 ∧ t.out.events = s.out.events ++ es
      ∧ (s.buf.length ≤ 320 → (∀ n, Event.ovf n ∉ es) ∧ t.evt.getLsbD 0 = s.evt.getLsbD 0)

/-- R141 (derived there): from an empty buffer, a string of exactly 300 bytes fed in any non-empty chunks, none of which
but the first begins with the marker, is evaluated once, on those bytes: the result is that of feeding it whole. -/
def Obligations.ChunkBoundariesDoNotMatter : Prop :=
  ∀ (c : List Byte) (cs : List (List Byte)) (s : State), s.buf = [] → (c :: cs).flatten.length = 300 →
    (∀ d ∈ c :: cs, d ≠ []) → (∀ d ∈ cs, beginsWithMarker d = false) →
      runAll ((c :: cs).map Instr.feed) s = exec (.feed (c :: cs).flatten) s

/-- R42, R162, R184: FEED never touches the held request, the configuration, `out_frame` or the returned value, and of
the correlator it can only clear a tag, when the dispatched frame's kind byte is that tag (R160, R268). -/
def Obligations.FeedFrame : Prop :=
  ∀ (c : List Byte) (s : State), ∃ t, exec (.feed c) s = .next t
    ∧ t = { s with
        buf := t.buf, status := t.status, pend := t.pend, age := t.age, cellSeen := t.cellSeen
        cellAge := t.cellAge, evt := t.evt, statusBefore := s.status
        out := { s.out with events := t.out.events } }
    ∧ ((t.pend = s.pend ∧ t.age = s.age)
      ∨ (t.pend = 0 ∧ t.age = 0 ∧ (s.pend = 2 ∨ s.pend = 3) ∧ byteAt (fedBuffer c s) 4 = s.pend.setWidth 8
          ∧ s.cfgProto = s.params.protoImpl
          ∧ checksum (fedBuffer c s) 299 = byteAt (fedBuffer c s) 299))

/-- R71, R280: the notification path is never blocked by a waiting request: what a FEED does to everything else is the
same whatever is held and whatever the bound is. -/
def Obligations.FeedIgnoresHeldRequest : Prop :=
  ∀ (c : List Byte) (s : State) (hv : Bool) (ht : Tag) (w tmo : Byte), ∃ t,
    exec (.feed c) s = .next t
      ∧ exec (.feed c) { s with holdV := hv, holdT := ht, wait := w, cfgTmo := tmo }
          = .next { t with holdV := hv, holdT := ht, wait := w, cfgTmo := tmo }

/-! ### The frame kinds (42_frame_dispatch.md) -/

/-- R153, R63: SETTINGS writes all eight registers, each the little-endian value of its four bytes with its valid bit
set, and nothing else: not CV, not the correlator. -/
def Obligations.SettingsWritesEight : Prop :=
  ∀ (f : List Byte) (s : State), 300 ≤ f.length →
    ∃ st : PerSetting SettingReg,
      exec (.settings f) s = .next { s with status := { s.status with st := st } }
        ∧ ∀ r : Setting, (st.get r).valid = true
            ∧ (st.get r).val.toNat
              = (byteAt f (s.params.off.get r)).toNat + 256 * (byteAt f (s.params.off.get r + 1)).toNat
                + 65536 * (byteAt f (s.params.off.get r + 2)).toNat
                + 16777216 * (byteAt f (s.params.off.get r + 3)).toNat

/-- R156, R160: a CELLINFO frame that is neither rate-limited nor out of range sets CV[1..n] from the little-endian
fields at 6 + 2*i with their valid bits, keeps every register above n, restarts the rate limiter, and clears the tag
when it is 2. Premise: the file has its capacity (R23), part of the invariant. -/
def Obligations.CellinfoDecodesCells : Prop :=
  ∀ (f : List Byte) (s : State), 300 ≤ f.length → s.status.cv.length = s.params.ncellMax →
    ¬ (s.cfgRefresh ≠ 0 ∧ s.cellSeen = true ∧ s.cellAge.toNat < s.cfgRefresh.toNat) →
    s.status.st.cellcnt.val.toNat ≤ s.params.ncellMax →
      ∃ cv : List CellReg,
        exec (.cellinfo f) s = .next { s with
          status := { s.status with cv := cv }
          cellSeen := true
          cellAge := 0
          pend := if s.pend = 2 then 0 else s.pend
          age := if s.pend = 2 then 0 else s.age }
        ∧ cv.length = s.params.ncellMax
        ∧ (∀ i, i < s.status.st.cellcnt.val.toNat → ∃ v : W16, cv[i]? = some ⟨v, true⟩
            ∧ v.toNat = (byteAt f (6 + 2 * i)).toNat + 256 * (byteAt f (7 + 2 * i)).toNat)
        ∧ (∀ i, s.status.st.cellcnt.val.toNat ≤ i → cv[i]? = s.status.cv[i]?)

/-- R155, R157: a rate-limited CELLINFO frame raises RLM and changes nothing else; one not limited, with a cell count
above NCELL_MAX, raises RNG and changes nothing else. -/
def Obligations.CellinfoWithoutDecode : Prop :=
  ∀ (f : List Byte) (s : State), 300 ≤ f.length →
    ((s.cfgRefresh ≠ 0 ∧ s.cellSeen = true ∧ s.cellAge.toNat < s.cfgRefresh.toNat) →
      exec (.cellinfo f) s = .next { s with
        evt := s.evt ||| 0x80
        out := { s.out with events := s.out.events ++ [.rlm s.cellAge] } })
    ∧ (¬ (s.cfgRefresh ≠ 0 ∧ s.cellSeen = true ∧ s.cellAge.toNat < s.cfgRefresh.toNat) →
      s.params.ncellMax < s.status.st.cellcnt.val.toNat →
        exec (.cellinfo f) s = .next { s with
          evt := s.evt ||| 0x20
          out := { s.out with events := s.out.events ++ [.rng s.status.st.cellcnt.val] } })

/-- R158: DEVICEINFO clears the tag when it is 3 and has no other effect; it reads no byte of its frame. -/
def Obligations.DeviceinfoClearsItsTag : Prop :=
  ∀ (f : List Byte) (s : State),
    exec (.deviceinfo f) s = .next { s with
      pend := if s.pend = 3 then 0 else s.pend
      age := if s.pend = 3 then 0 else s.age }

/-- R104, R92 (U1): a SETTINGS decode depends on its eight fields only and a CELLINFO decode on the bytes of its n cell
fields only: marker, byte 5 and every other payload byte are ignored. -/
def Obligations.UndecodedBytesAreIgnored : Prop :=
  ∀ (f g : List Byte) (s : State), 300 ≤ f.length → 300 ≤ g.length →
    ((∀ (r : Setting) (j : Nat), j < 4 → byteAt f (s.params.off.get r + j) = byteAt g (s.params.off.get r + j)) →
      exec (.settings f) s = exec (.settings g) s)
    ∧ ((∀ j, 6 ≤ j → j < 6 + 2 * s.status.st.cellcnt.val.toNat → byteAt f j = byteAt g j) →
      exec (.cellinfo f) s = exec (.cellinfo g) s)

/-- R66 (derived there): with any legal parameters every field read lies inside the frame and before the checksum
byte. -/
def Obligations.FieldReadsStayInFrame : Prop :=
  ∀ p : Params, (∀ r : Setting, 5 < p.off.get r ∧ p.off.get r + 4 ≤ 299)
    ∧ (∀ i, i < p.ncellMax → 6 ≤ cellOff i ∧ cellOff i + 2 ≤ 298)

/-! ### The correlator (44_correlator.md) -/

/-- R204 to R206, R235: a TICK with nothing held. The rate limiter ages (only after the first accepted frame); with
nothing pending nothing else changes; with a request pending AGE goes up by one, saturating, and when it has reached
CFG_TMO the tag is cleared and TMO with the abandoned tag is raised. -/
def Obligations.TickWithoutHeldRequest : Prop :=
  ∀ s : State, s.holdV = false →
    (s.pend = 0 → exec .tick s = .next { s with cellAge := tickedCellAge s })
    ∧ (s.pend ≠ 0 → min 255 (s.age.toNat + 1) < s.cfgTmo.toNat →
      exec .tick s = .next { s with
        cellAge := tickedCellAge s, age := BitVec.ofNat 8 (min 255 (s.age.toNat + 1)) })
    ∧ (s.pend ≠ 0 → s.cfgTmo.toNat ≤ min 255 (s.age.toNat + 1) →
      exec .tick s = .next { s with
        cellAge := tickedCellAge s, pend := 0, age := 0, evt := s.evt ||| 0x08
        out := { s.out with events := s.out.events ++ [.tmo s.pend] } })

/-- R204, R207: a TICK with a request of tag 2 or 3 held. When the correlator is Idle after step 2 (it was, or the
timeout fired in this TICK) the held request is launched in it; when it is not Idle and neither bound is reached both
counters go up by one. (The launch of step 3 with PEND non-zero is the third clause: `WAIT` reaching the bound while
`AGE` has not, which R208 shows no run reaches.) -/
def Obligations.TickPollsHeldRequest : Prop :=
  ∀ s : State, s.holdV = true → (s.holdT = 2 ∨ s.holdT = 3) →
    (s.pend = 0 →
      exec .tick s = .next { s with
        cellAge := tickedCellAge s, pend := s.holdT, age := 0, holdV := false, holdT := 0, wait := 0
        out := { s.out with frames := s.out.frames ++ [requestBytes s.params s.holdT] } })
    ∧ (s.pend ≠ 0 → s.cfgTmo.toNat ≤ min 255 (s.age.toNat + 1) →
      exec .tick s = .next { s with
        cellAge := tickedCellAge s, pend := s.holdT, age := 0, holdV := false, holdT := 0, wait := 0
        evt := s.evt ||| 0x08
        out := { s.out with
          frames := s.out.frames ++ [requestBytes s.params s.holdT]
          events := s.out.events ++ [.tmo s.pend] } })
    ∧ (s.pend ≠ 0 → min 255 (s.age.toNat + 1) < s.cfgTmo.toNat → s.cfgTmo.toNat ≤ min 255 (s.wait.toNat + 1) →
      exec .tick s = .next { s with
        cellAge := tickedCellAge s, pend := s.holdT, age := 0, holdV := false, holdT := 0, wait := 0
        evt := s.evt ||| 0x40
        out := { s.out with
          frames := s.out.frames ++ [requestBytes s.params s.holdT]
          events := s.out.events ++ [.wfo s.pend] } })
    ∧ (s.pend ≠ 0 → min 255 (s.age.toNat + 1) < s.cfgTmo.toNat → min 255 (s.wait.toNat + 1) < s.cfgTmo.toNat →
      exec .tick s = .next { s with
        cellAge := tickedCellAge s
        age := BitVec.ofNat 8 (min 255 (s.age.toNat + 1))
        wait := BitVec.ofNat 8 (min 255 (s.wait.toNat + 1)) })

/-- R206: a launched request that no frame answers and behind which nothing is held times out in exactly the
CFG_TMO-th TICK (the first one for a bound of 0), and not before. -/
def Obligations.TimeoutAtExactlyTheBound : Prop :=
  ∀ s : State, s.pend ≠ 0 → s.age = 0 → s.holdV = false →
    (∀ j, j < max 1 s.cfgTmo.toNat →
      ∃ t, ticks j s = .next t ∧ t.pend = s.pend ∧ t.age.toNat = j ∧ t.out = s.out ∧ t.evt = s.evt)
    ∧ ∃ t, ticks (max 1 s.cfgTmo.toNat) s = .next t ∧ t.pend = 0 ∧ t.age = 0
        ∧ t.out = { s.out with events := s.out.events ++ [.tmo s.pend] } ∧ t.evt = s.evt ||| 0x08

/-- R207, R208: a held request is launched no later than the TICK in which its wait reaches CFG_TMO, with its own frame
and tag, and never by force: no WFO is raised on the way. From any state that meets the invariant. -/
def Obligations.HeldRequestLaunchesWithinBound : Prop :=
  ∀ s : State, s.Inv → s.holdV = true →
    ∃ (n : Nat) (t : State) (es : List Event), 1 ≤ n ∧ n ≤ max 1 (s.cfgTmo.toNat - s.wait.toNat)
      ∧ ticks n s = .next t
      ∧ t.holdV = false ∧ t.holdT = 0 ∧ t.wait = 0 ∧ t.pend = s.holdT ∧ t.age = 0
      ∧ t.out.frames = s.out.frames ++ [requestBytes s.params s.holdT]
      ∧ t.out.events = s.out.events ++ es ∧ (es = [] ∨ es = [.tmo s.pend])

/-- R208, R242 (derived there): from a state that meets the invariant, WFO is raised by no operation but an accepted
request with CFG_TMO = 0 while another is pending. -/
def Obligations.WfoOnlyWithZeroBound : Prop :=
  ∀ (i : Instr) (s t : State) (es : List Event) (g : Tag), s.Inv → exec i s = .next t →
    t.out.events = s.out.events ++ es → Event.wfo g ∈ es →
      s.cfgTmo = 0 ∧ s.holdV = false ∧ s.pend = g ∧ g ≠ 0
        ∧ (i = .reqCellInfo ∨ i = .reqDeviceInfo ∨ ∃ w, i = .cmd w)

/-- R209: the transitions of PEND are exactly the rows of `PendRow`. From a state that meets the invariant, an
instruction that changes PEND does so by a row, to that row's value; and whenever a row applies, PEND afterwards is
that row's value. (That the rows WRITE_REG, REQ_CELL_INFO and REQ_DEVICE_INFO mean the accepted command is the model's
reading, log 16, and that an inbound routine also runs by itself is the model's choice, log 5.) -/
def Obligations.PendTransitions : Prop :=
  ∀ (i : Instr) (s t : State), s.Inv → exec i s = .next t →
    (t.pend ≠ s.pend → PendRow i s t.pend) ∧ (∀ p, PendRow i s p → t.pend = p)

/-! ### Conditions, configuration, status, reset (60_exceptions.md, 70_reset_and_hazards.md) -/

/-- R231, R35: conditions are appended to the event list and set their sticky bits, and no bit is cleared by anything
but RESET. -/
def Obligations.EventsSetStickyBits : Prop :=
  ∀ (i : Instr) (s t : State), exec i s = .next t → i ≠ .reset →
    ∃ es, t.out.events = s.out.events ++ es ∧ t.evt = s.evt ||| evtBits es

/-- R242: at most one of VER, UNK, RLM, RNG, CSF in a FEED, after at most one OVF, and OVF together with another only
when the chunk alone is 300 bytes or more; at most TMO in a TICK that meets the invariant; at most WFO in a command;
no condition in any other operation of a port. -/
def Obligations.ConditionsPerOperation : Prop :=
  ∀ s : State,
    (∀ c, ∃ (t : State) (es fs : List Event), exec (.feed c) s = .next t ∧ t.out.events = s.out.events ++ es ++ fs
      ∧ es = (if 320 < s.buf.length then [.ovf s.buf.length] else [])
      ∧ (fs = [] ∨ ∃ e, fs = [e] ∧ e.code ∈ [1, 2, 4, 5, 7])
      ∧ (es ≠ [] → fs ≠ [] → 300 ≤ c.length))
    ∧ (s.Inv → ∃ t, exec .tick s = .next t
        ∧ (t.out.events = s.out.events ∨ t.out.events = s.out.events ++ [.tmo s.pend]))
    ∧ (∀ w, ∃ t, exec (.cmd w) s = .next t
        ∧ (t.out.events = s.out.events ∨ (s.cfgTmo = 0 ∧ t.out.events = s.out.events ++ [.wfo s.pend])))
    ∧ (∀ i t, (i = .sessionReset ∨ (∃ o, i = .statusRead o) ∨ ∃ c, i = .cfgWrite c) → exec i s = .next t →
        t.out.events = s.out.events)

/-- R260: RESET from any state puts every register at its reset value; it emits nothing and raises nothing, and leaves
no state of R20 out. -/
def Obligations.ResetSetsEveryRegister : Prop :=
  ∀ s : State, ∃ t, exec .reset s = .next t
    ∧ t.buf = []
    ∧ (∀ r : Setting, t.status.st.get r = ⟨0, false⟩)
    ∧ t.status.cv = List.replicate s.params.ncellMax ⟨0, false⟩
    ∧ t.pend = 0 ∧ t.age = 0
    ∧ t.holdV = false ∧ t.holdT = 0 ∧ t.wait = 0
    ∧ t.cellSeen = false ∧ t.cellAge = 0
    ∧ t.cfgProto = s.params.protoImpl ∧ t.cfgRefresh = 0 ∧ t.cfgTmo = 10
    ∧ t.evt = 0
    ∧ t.params = s.params ∧ t.out = s.out

/-- R261: SESSION_RESET from any state clears the buffer, the pending and the held request, and nothing else. -/
def Obligations.SessionResetScope : Prop :=
  ∀ s : State,
    exec .sessionReset s = .next { s with
      buf := [], pend := 0, age := 0, holdV := false, holdT := 0, wait := 0 }

/-- R250, R75: CFG_WRITE(r, v) writes the one register with any value, in every state, and nothing else; whatever
operations follow run with the new value. -/
def Obligations.CfgWriteWritesOne : Prop :=
  ∀ (v : Byte) (w : W16) (is : List Instr) (s : State),
    (exec (.cfgWrite (.proto v)) s = .next { s with cfgProto := v }
      ∧ runAll (.cfgWrite (.proto v) :: is) s = runAll is { s with cfgProto := v })
    ∧ (exec (.cfgWrite (.refresh w)) s = .next { s with cfgRefresh := w }
      ∧ runAll (.cfgWrite (.refresh w) :: is) s = runAll is { s with cfgRefresh := w })
    ∧ (exec (.cfgWrite (.tmo v)) s = .next { s with cfgTmo := v }
      ∧ runAll (.cfgWrite (.tmo v) :: is) s = runAll is { s with cfgTmo := v })

/-- R251, R70, R42: STATUS_READ returns the current registers with their valid bits; when it overlaps a FEED it returns
for each register, whole, the value before that FEED or the value after it, whatever the free value chooses. Nothing
else changes (but the model's count of torn reads, log 4). -/
def Obligations.StatusReadReturnsRegisters : Prop :=
  ∀ s : State,
    exec (.statusRead false) s = .next { s with out := { s.out with answer := some (.status s.status) } }
    ∧ ∃ m : StatusModel,
        exec (.statusRead true) s = .next { s with
          serial := s.serial + 1, out := { s.out with answer := some (.status m) } }
        ∧ (∀ r : Setting, m.st.get r = s.statusBefore.st.get r ∨ m.st.get r = s.status.st.get r)
        ∧ m.cv.length = s.params.ncellMax
        ∧ (∀ k, 1 ≤ k → k ≤ s.params.ncellMax → m.cell k = s.statusBefore.cell k ∨ m.cell k = s.status.cell k)

/-- R29, R28, R251: a reader sees a key exactly when its valid bit is set: the seven scaled settings and the cells as
raw/1000, the cell count unscaled. -/
def Obligations.ReaderSeesValidKeys : Prop :=
  ∀ m : StatusModel,
    (∀ r : Setting, m.lookup (.setting r) = none ↔ (m.st.get r).valid = false)
    ∧ (∀ r : Setting, r ≠ .cellcnt → (m.st.get r).valid = true →
        ∃ q : Rat, m.lookup (.setting r) = some q ∧ q * 1000 = ((m.st.get r).val.toNat : Rat))
    ∧ ((m.st.get .cellcnt).valid = true →
        m.lookup (.setting .cellcnt) = some ((m.st.get .cellcnt).val.toNat : Rat))
    ∧ (∀ k, 1 ≤ k → (m.lookup (.cellVoltage k) = none ↔ (m.cell k).valid = false))
    ∧ (∀ k, 1 ≤ k → (m.cell k).valid = true →
        ∃ q : Rat, m.lookup (.cellVoltage k) = some q ∧ q * 1000 = ((m.cell k).val.toNat : Rat))

/-- R22, R23: "No register is ever invalidated": a valid bit once set stays set under everything but RESET. -/
def Obligations.ValidBitsStaySet : Prop :=
  ∀ (i : Instr) (s t : State), exec i s = .next t → i ≠ .reset →
    (∀ r : Setting, (s.status.st.get r).valid = true → (t.status.st.get r).valid = true)
    ∧ (∀ k, 1 ≤ k → (s.status.cell k).valid = true → (t.status.cell k).valid = true)

/-- R22, R23, R42: the decode path is the sole writer of ST and CV: a settings register changes only in a FEED that
dispatches a SETTINGS frame (or in the SETTINGS routine itself) and RESET, a cell register only in a FEED that
dispatches a CELLINFO frame (or that routine) and RESET. -/
def Obligations.StatusWriters : Prop :=
  ∀ (i : Instr) (s t : State), exec i s = .next t → i ≠ .reset →
    (t.status.st ≠ s.status.st → (∃ f, i = .settings f) ∨ ∃ c, i = .feed c ∧ byteAt (fedBuffer c s) 4 = 1)
    ∧ (t.status.cv ≠ s.status.cv → (∃ f, i = .cellinfo f) ∨ ∃ c, i = .feed c ∧ byteAt (fedBuffer c s) 4 = 2)

/-- R34: the configuration registers are written by CFG_WRITE and RESET only, and the parameters by nothing. -/
def Obligations.ConfigurationWriters : Prop :=
  ∀ (i : Instr) (s t : State), exec i s = .next t →
    t.params = s.params
    ∧ (i = .reset ∨ (∃ c, i = .cfgWrite c)
      ∨ (t.cfgProto = s.cfgProto ∧ t.cfgRefresh = s.cfgRefresh ∧ t.cfgTmo = s.cfgTmo))

/-! ### The machine -/

/-- R252: the engine has no fatal condition and no halted state: every step goes on, in every state, reachable or not. -/
def Obligations.EveryStepGoesOn : Prop :=
  ∀ s : State, ∃ t, step s = .next t

/-- The model's stops (log 6): an internal row run by itself outside the domain its rule gives it. -/
def Obligations.OutsideItsDomainARowFaults : Prop :=
  (∀ (f : List Byte) (s : State), f.length < 300 →
    exec (.settings f) s = .fault .frameTooShort ∧ exec (.cellinfo f) s = .fault .frameTooShort)
  ∧ (∀ (v : List Byte) (n : Nat) (s : State), v.length < n → exec (.checksum v n) s = .fault .checksumRange)

/-- R70 item 1, R40 (log 1, log 2): a step takes the oldest port event, decodes it and executes exactly the decoded
instruction, in the state with that event taken and no output presented; with no event the engine is idle. -/
def Obligations.StepRunsTheOldestEvent : Prop :=
  (∀ (s : State) (e : PortEvent) (rest : List PortEvent), s.inbox = e :: rest →
    ∃ i : Instr, decode s.params (.port e) = .ok i ∧ i.wellFormed = true
      ∧ step s = exec i { s with inbox := rest, out := ⟨[], [], none⟩ })
  ∧ (∀ s : State, s.inbox = [] → step s = .next s)

/-- How an instruction comes to be the next step (log 8): an operation's event and an outbound form's command word run
it exactly; an inbound frame, fed whole to the empty buffer, runs its kind's routine on exactly that frame, and then
the buffer is cleared (R135). -/
def Obligations.ArrangedInstructionRunsNext : Prop :=
  ∀ (i : Instr) (s : State), i.wellFormed = true →
    match i with
    | .settings f | .cellinfo f | .deviceinfo f =>
      ∃ t, step (arrange i s) = .next { t with buf := [] }
        ∧ exec i { s with
            buf := f, cfgProto := s.params.protoImpl, statusBefore := s.status, out := ⟨[], [], none⟩ } = .next t
    | .writeReg _ _ _ | .reqCellInfo | .reqDeviceInfo | .cmd _ =>
      step (arrange i s)
        = exec i { s with holdV := false, holdT := 0, wait := 0, out := ⟨[], [], none⟩ }
    | .checksum _ _ | .build _ _ _ => arrange i s = s
    | .feed _ | .tick | .sessionReset | .reset | .statusRead _ | .cfgWrite _ =>
      step (arrange i s) = exec i { s with out := ⟨[], [], none⟩ }

/-- R72: for every cycle: with RESET, only RESET takes effect; without it, exactly the events that fall in the cycle,
each once, in the order SESSION_RESET, CFG_WRITE, FEED, TICK, CMD, STATUS_READ. (That the order is a function of the
events of a cycle, beside the step, is the model's choice, log 12.) -/
def Obligations.CycleOrderIsFixed : Prop :=
  ∀ x : Cycle,
    (x.rst = true → cycleOrder x = [.rst])
    ∧ (x.rst = false →
      (∀ e : PortEvent, e ∈ cycleOrder x ↔ FallsIn x e)
      ∧ (cycleOrder x).Pairwise (fun a b => placeInCycle a < placeInCycle b))
    ∧ (∀ (g : CfgWrite) (c : List Byte) (w : BitVec 50) (o : Bool),
      cycleOrder ⟨false, true, some g, some c, true, some w, some o⟩
        = [.sessionReset, .cfg g, .inChunk c, .tick, .cmd w, .status o])

/-- R27, R30, R31, R32, R208, R205, R23, R29: RESET establishes the invariant at rest, whatever the parameters. -/
def Obligations.ResetMeetsInvariant : Prop :=
  (∀ p : Params, (State.resetWith p).Inv) ∧ State.reset.Inv ∧ ∀ s : State, ∃ t, exec .reset s = .next t ∧ t.Inv

/-- R27, R30, R31, R32, R208, R205, R23, R29: every step keeps the invariant at rest, from every state that meets it. -/
def Obligations.StepKeepsInvariant : Prop :=
  ∀ s t : State, s.Inv → step s = .next t → t.Inv

/-- 30_encoding.md: decode and encode agree: the code of every well-formed instruction decodes to it, with every
operand, whatever the parameters. -/
def Obligations.DecodeOfEncode : Prop :=
  ∀ (p : Params) (i : Instr), i.wellFormed = true → decode p (encode i) = .ok i

/-- R98, R99: the frame of an outbound form decodes to it, unless a WRITE_REG builds the same bytes as a request (log
9), in which case the two frames are equal (R99). -/
def Obligations.OutboundFrameDecodes : Prop :=
  ∀ (p : Params) (i : Instr) (f : List Byte), encodeFrameOut p i = some f →
    f.length = 20 ∧ checksum f 19 = byteAt f 19
    ∧ (decode p (.frameOut f) = .ok i
      ∨ ((∃ a, i = .writeReg a 0 ⟨0, 0, 0, 0⟩ ∧ (a = 0x96 ∨ a = p.addrReqDeviceInfo))
          ∧ ∃ j, (j = .reqCellInfo ∨ j = .reqDeviceInfo) ∧ encodeFrameOut p j = some f
            ∧ decode p (.frameOut f) = .ok j))

/-- R93, R99, R101, R108: words written out from the spec's encodings decode to their instructions: the three frame
kinds, the three outbound forms, the four command words; and no other kind byte is a kind (R104). (The model's own here:
a request's frame decodes as the request and not as WRITE_REG, log 9; the address 0x97 of Params.default, log 3; the
order of the fields in the 50-bit word, log 7.) -/
def Obligations.SpecWordsDecode : Prop :=
  (∀ rest : List Byte, rest.length = 295 →
    decode Params.default (.frameIn ([0x55, 0xAA, 0xEB, 0x90, 0x01] ++ rest))
      = .ok (.settings ([0x55, 0xAA, 0xEB, 0x90, 0x01] ++ rest))
    ∧ decode Params.default (.frameIn ([0x55, 0xAA, 0xEB, 0x90, 0x02] ++ rest))
      = .ok (.cellinfo ([0x55, 0xAA, 0xEB, 0x90, 0x02] ++ rest))
    ∧ decode Params.default (.frameIn ([0x55, 0xAA, 0xEB, 0x90, 0x03] ++ rest))
      = .ok (.deviceinfo ([0x55, 0xAA, 0xEB, 0x90, 0x03] ++ rest)))
  ∧ decode Params.default
      (.frameOut [0xAA, 0x55, 0x90, 0xEB, 0x96, 0, 0, 0, 0, 0, 0, 0, 0, 0, 0, 0, 0, 0, 0, 0x10]) = .ok .reqCellInfo
  ∧ decode Params.default
      (.frameOut [0xAA, 0x55, 0x90, 0xEB, 0x97, 0, 0, 0, 0, 0, 0, 0, 0, 0, 0, 0, 0, 0, 0, 0x11]) = .ok .reqDeviceInfo
  ∧ decode Params.default
      (.frameOut [0xAA, 0x55, 0x90, 0xEB, 0x1D, 4, 1, 0, 0, 0, 0, 0, 0, 0, 0, 0, 0, 0, 0, 0x9C])
      = .ok (.writeReg 0x1D 4 ⟨1, 0, 0, 0⟩)
  ∧ decode Params.default (.command 0b00000111010000010000000001000000000000000000000000#50)
      = .ok (.writeReg 0x1D 4 ⟨1, 0, 0, 0⟩)
  ∧ decode Params.default (.command 0b01000000000000000000000000000000000000000000000000#50) = .ok .reqCellInfo
  ∧ decode Params.default (.command 0b10000000000000000000000000000000000000000000000000#50) = .ok .reqDeviceInfo
  ∧ decode Params.default (.command 0b11000000000000000000000000000000000000000000000000#50)
      = .error .reservedCommand
  ∧ (∀ k : Byte, k ≠ 1 → k ≠ 2 → k ≠ 3 → decodeKind k = .error (.unknownKind k))
end

