-- ==== Sys2Proof/Laws/Operands.lean ====
section
/-! SUPPORT. Laws of the operand forms: little-endian fields, the checksum, the start marker, saturating counters. -/

namespace Sys2Proof.Machine

theorem byteAt_cons_zero (b : Byte) (s : List Byte) : byteAt (b :: s) 0 = b := rfl

theorem byteAt_cons_succ (b : Byte) (s : List Byte) (i : Nat) : byteAt (b :: s) (i + 1) = byteAt s i := rfl

theorem byteAt_of_lt (s : List Byte) (i : Nat) (h : i < s.length) : byteAt s i = s[i] := by
  simp [byteAt, h]

theorem drop_eq_byteAt_cons (s : List Byte) (i : Nat) (h : i < s.length) :
    s.drop i = byteAt s i :: s.drop (i + 1) := by
  rw [List.drop_eq_getElem_cons h, byteAt_of_lt s i h]

/-- A two-byte field is low byte plus 256 times high byte (R63). -/
theorem memRead_two (f : List Byte) (a : Nat) (h : a + 2 ≤ f.length) :
    memRead f a 2 = (byteAt f a).toNat + 256 * (byteAt f (a + 1)).toNat := by
  unfold memRead
  rw [drop_eq_byteAt_cons f a (by omega), drop_eq_byteAt_cons f (a + 1) (by omega)]
  simp [le]

/-- A four-byte field is the sum of R63. -/
theorem memRead_four (f : List Byte) (a : Nat) (h : a + 4 ≤ f.length) :
    memRead f a 4 = (byteAt f a).toNat + 256 * (byteAt f (a + 1)).toNat + 65536 * (byteAt f (a + 2)).toNat
      + 16777216 * (byteAt f (a + 3)).toNat := by
  unfold memRead
  rw [drop_eq_byteAt_cons f a (by omega), drop_eq_byteAt_cons f (a + 1) (by omega),
    drop_eq_byteAt_cons f (a + 1 + 1) (by omega), drop_eq_byteAt_cons f (a + 1 + 1 + 1) (by omega)]
  simp [le, Nat.add_assoc]
  omega

/-- A 32-bit field is exact (R161). -/
theorem field32_toNat (f : List Byte) (a : Nat) (h : a + 4 ≤ f.length) :
    (field32 f a).toNat = (byteAt f a).toNat + 256 * (byteAt f (a + 1)).toNat
      + 65536 * (byteAt f (a + 2)).toNat + 16777216 * (byteAt f (a + 3)).toNat := by
  have := (byteAt f a).isLt
  have := (byteAt f (a + 1)).isLt
  have := (byteAt f (a + 2)).isLt
  have := (byteAt f (a + 3)).isLt
  rw [field32, Config.settingWidth, memRead_four f a h, BitVec.toNat_ofNat, Nat.mod_eq_of_lt (by omega)]

/-- A 16-bit cell field is exact (R161). -/
theorem field16_toNat (f : List Byte) (i : Nat) (h : cellOff i + 2 ≤ f.length) :
    (field16 f i).toNat = (byteAt f (6 + 2 * i)).toNat + 256 * (byteAt f (7 + 2 * i)).toNat := by
  have := (byteAt f (6 + 2 * i)).isLt
  have := (byteAt f (7 + 2 * i)).isLt
  have e : cellOff i + 1 = 7 + 2 * i := by simp only [cellOff, Config.cellBase, Config.cellStride]; omega
  have e' : cellOff i = 6 + 2 * i := rfl
  rw [field16, Config.cellWidth, memRead_two f _ h, e, e', BitVec.toNat_ofNat, Nat.mod_eq_of_lt (by omega)]

/-- The checksum may be kept in 8 bits (R120). -/
theorem checksum_eq_foldl (s : List Byte) (n : Nat) : checksum s n = (s.take n).foldl (· + ·) 0 := by
  have key : ∀ (l : List Byte) (a : Byte), l.foldl (· + ·) a = a + BitVec.ofNat 8 (l.map BitVec.toNat).sum := by
    intro l
    induction l with
    | nil => simp
    | cons b l ih =>
      intro a
      rw [List.foldl_cons, ih, List.map_cons, List.sum_cons, BitVec.ofNat_add, BitVec.ofNat_toNat,
        BitVec.setWidth_eq, BitVec.add_assoc]
  rw [key]
  simp [checksum]

theorem checksum_toNat (s : List Byte) (n : Nat) :
    (checksum s n).toNat = ((s.take n).map BitVec.toNat).sum % 256 := by
  simp [checksum]

/-- The checksum of the first `n` bytes ignores what follows them (R120). -/
theorem checksum_append (s t : List Byte) (n : Nat) (h : n ≤ s.length) : checksum (s ++ t) n = checksum s n := by
  simp [checksum, List.take_append_of_le_length h]

/-- The marker test of R132, as the rule writes it. -/
theorem beginsWithMarker_iff (c : List Byte) : beginsWithMarker c = true ↔ c.take 4 = [0x55, 0xAA, 0xEB, 0x90] := by
  constructor
  · intro h
    simpa [beginsWithMarker, Config.inMarker] using (Bool.and_eq_true_iff.mp h).2
  · intro h
    have hl : (c.take 4).length = 4 := by rw [h]; rfl
    rw [List.length_take] at hl
    simp only [beginsWithMarker, Bool.and_eq_true, decide_eq_true_eq, beq_iff_eq]
    exact ⟨by omega, h⟩

/-- A chunk of fewer than 4 bytes does not begin with the marker (R137). -/
theorem beginsWithMarker_short (c : List Byte) (h : c.length < 4) : beginsWithMarker c = false := by
  simp [beginsWithMarker]
  omega

theorem satInc_toNat {w : Nat} (x : BitVec w) : (satInc x).toNat = min (2 ^ w - 1) (x.toNat + 1) := by
  have := Nat.two_pow_pos w
  rw [satInc, BitVec.toNat_ofNat, Nat.mod_eq_of_lt (by omega)]

end Sys2Proof.Machine

namespace Sys2Proof

@[simp] theorem PerSetting.get_set_self {α : Type} (p : PerSetting α) (r : Setting) (x : α) :
    (p.set r x).get r = x := by
  cases r <;> rfl

theorem PerSetting.get_set_of_ne {α : Type} (p : PerSetting α) (r q : Setting) (x : α) (h : q ≠ r) :
    (p.set r x).get q = p.get q := by
  cases r <;> cases q <;> first | rfl | exact absurd rfl h

/-- What R7 asks of the parameters, in words a proof can use. -/
theorem Params.ncellMax_le (p : Params) : p.ncellMax ≤ 146 := by
  have h := p.ok
  simp only [paramsOk, Bool.and_eq_true, decide_eq_true_eq] at h
  exact h.1.1.1

theorem Params.off_range (p : Params) (r : Setting) : 5 < p.off.get r ∧ p.off.get r ≤ 295 := by
  have h := p.ok
  simp only [paramsOk, Bool.and_eq_true, decide_eq_true_eq, List.all_eq_true, PerSetting.toList] at h
  have h := h.1.1.2
  cases r <;> exact h _ (by simp [PerSetting.get])

theorem Params.addr_ne (p : Params) : p.addrReqDeviceInfo ≠ 0x96 := by
  have h := p.ok
  simp only [paramsOk, Bool.and_eq_true, decide_eq_true_eq] at h
  exact h.2

end Sys2Proof
end

