-- ==== Sys2Proof/Laws/Decode.lean ====
section
/-! SUPPORT. Laws of the decoder and the encoder: the command word, and that a port event always decodes to a
well-formed instruction. -/

namespace Sys2Proof

/-- The last byte packed is the low byte. -/
theorem pack_mod (x : Nat) (b : Byte) : (x * 256 + b.toNat) % 2 ^ 8 = b.toNat := by
  have := b.isLt
  omega

/-- Eight bits further up stands what was packed before. -/
theorem pack_div (x k : Nat) (b : Byte) : (x * 256 + b.toNat) / 2 ^ (k + 8) = x / 2 ^ k := by
  have := b.isLt
  rw [Nat.add_comm k 8, Nat.pow_add, ← Nat.div_div_eq_div_mul]
  congr 1
  omega

/-- No bit of a command word is dropped (R101, R108). -/
theorem decodeCmdWord_encodeCmdWord (c : CmdWord) : decodeCmdWord (encodeCmdWord c) = c := by
  rcases c with ⟨op, a, l, ⟨v0, v1, v2, v3⟩⟩
  have hn : (encodeCmdWord ⟨op, a, l, ⟨v0, v1, v2, v3⟩⟩).toNat
      = (((((op.toNat * 256 + a.toNat) * 256 + l.toNat) * 256 + v0.toNat) * 256 + v1.toNat) * 256 + v2.toNat) * 256
        + v3.toNat := by
    have := op.isLt
    have := a.isLt
    have := l.isLt
    have := v0.isLt
    have := v1.isLt
    have := v2.isLt
    have := v3.isLt
    simp only [encodeCmdWord, Value.bytes, List.cons_append, List.nil_append, List.foldl_cons, List.foldl_nil,
      BitVec.toNat_ofNat]
    apply Nat.mod_eq_of_lt
    omega
  have h0 : ∀ x : Nat, x / 2 ^ 0 = x := fun x => by simp
  have ho : op.toNat % 2 ^ 2 = op.toNat := Nat.mod_eq_of_lt op.isLt
  have e48 : (48 : Nat) = 0 + 8 + 8 + 8 + 8 + 8 + 8 := rfl
  have e40 : (40 : Nat) = 0 + 8 + 8 + 8 + 8 + 8 := rfl
  have e32 : (32 : Nat) = 0 + 8 + 8 + 8 + 8 := rfl
  have e24 : (24 : Nat) = 0 + 8 + 8 + 8 := rfl
  have e16 : (16 : Nat) = 0 + 8 + 8 := rfl
  simp only [decodeCmdWord, CmdWord.mk.injEq, Value.mk.injEq]
  refine ⟨?_, ?_, ?_, ?_, ?_, ?_, ?_⟩ <;> apply BitVec.eq_of_toNat_eq <;>
    rw [BitVec.extractLsb'_toNat, hn, Nat.shiftRight_eq_div_pow]
  · rw [e48, pack_div, pack_div, pack_div, pack_div, pack_div, pack_div, h0, ho]
  · rw [e40, pack_div, pack_div, pack_div, pack_div, pack_div, h0, pack_mod]
  · rw [e32, pack_div, pack_div, pack_div, pack_div, h0, pack_mod]
  · rw [e24, pack_div, pack_div, pack_div, h0, pack_mod]
  · rw [e16, pack_div, pack_div, h0, pack_mod]
  · have := pack_div (((((op.toNat * 256 + a.toNat) * 256 + l.toNat) * 256 + v0.toNat) * 256 + v1.toNat) * 256
      + v2.toNat) 0 v3
    rw [Nat.zero_add, h0] at this
    rw [this, pack_mod]
  · rw [h0, pack_mod]

/-- Every port event decodes to a well-formed instruction (R40, R252). -/
theorem decodePort_wellFormed (e : PortEvent) : (decodePort e).wellFormed = true := by
  cases e <;> rfl

end Sys2Proof
end

