-- ==== Sys2Proof/Laws/State.lean ====
section
/-! SUPPORT. One lemma per field per named update of State, each true by rfl: later proofs cite these and unfold no
record update. -/

namespace Sys2Proof.Machine

variable (s : State)

/-! ### raise -/

@[simp] theorem raise_buf (e : Event) : (raise e s).buf = s.buf := rfl
@[simp] theorem raise_status (e : Event) : (raise e s).status = s.status := rfl
@[simp] theorem raise_pend (e : Event) : (raise e s).pend = s.pend := rfl
@[simp] theorem raise_age (e : Event) : (raise e s).age = s.age := rfl
@[simp] theorem raise_holdV (e : Event) : (raise e s).holdV = s.holdV := rfl
@[simp] theorem raise_holdT (e : Event) : (raise e s).holdT = s.holdT := rfl
@[simp] theorem raise_wait (e : Event) : (raise e s).wait = s.wait := rfl
@[simp] theorem raise_cellSeen (e : Event) : (raise e s).cellSeen = s.cellSeen := rfl
@[simp] theorem raise_cellAge (e : Event) : (raise e s).cellAge = s.cellAge := rfl
@[simp] theorem raise_cfgProto (e : Event) : (raise e s).cfgProto = s.cfgProto := rfl
@[simp] theorem raise_cfgRefresh (e : Event) : (raise e s).cfgRefresh = s.cfgRefresh := rfl
@[simp] theorem raise_cfgTmo (e : Event) : (raise e s).cfgTmo = s.cfgTmo := rfl
@[simp] theorem raise_evt (e : Event) : (raise e s).evt = s.evt ||| evtBit e := rfl
@[simp] theorem raise_params (e : Event) : (raise e s).params = s.params := rfl
@[simp] theorem raise_statusBefore (e : Event) : (raise e s).statusBefore = s.statusBefore := rfl
@[simp] theorem raise_serial (e : Event) : (raise e s).serial = s.serial := rfl
@[simp] theorem raise_inbox (e : Event) : (raise e s).inbox = s.inbox := rfl
@[simp] theorem raise_out (e : Event) : (raise e s).out = { s.out with events := s.out.events ++ [e] } := rfl

/-! ### emit -/

@[simp] theorem emit_buf (f : List Byte) : (emit f s).buf = s.buf := rfl
@[simp] theorem emit_status (f : List Byte) : (emit f s).status = s.status := rfl
@[simp] theorem emit_pend (f : List Byte) : (emit f s).pend = s.pend := rfl
@[simp] theorem emit_age (f : List Byte) : (emit f s).age = s.age := rfl
@[simp] theorem emit_holdV (f : List Byte) : (emit f s).holdV = s.holdV := rfl
@[simp] theorem emit_holdT (f : List Byte) : (emit f s).holdT = s.holdT := rfl
@[simp] theorem emit_wait (f : List Byte) : (emit f s).wait = s.wait := rfl
@[simp] theorem emit_cellSeen (f : List Byte) : (emit f s).cellSeen = s.cellSeen := rfl
@[simp] theorem emit_cellAge (f : List Byte) : (emit f s).cellAge = s.cellAge := rfl
@[simp] theorem emit_cfgProto (f : List Byte) : (emit f s).cfgProto = s.cfgProto := rfl
@[simp] theorem emit_cfgRefresh (f : List Byte) : (emit f s).cfgRefresh = s.cfgRefresh := rfl
@[simp] theorem emit_cfgTmo (f : List Byte) : (emit f s).cfgTmo = s.cfgTmo := rfl
@[simp] theorem emit_evt (f : List Byte) : (emit f s).evt = s.evt := rfl
@[simp] theorem emit_params (f : List Byte) : (emit f s).params = s.params := rfl
@[simp] theorem emit_statusBefore (f : List Byte) : (emit f s).statusBefore = s.statusBefore := rfl
@[simp] theorem emit_serial (f : List Byte) : (emit f s).serial = s.serial := rfl
@[simp] theorem emit_inbox (f : List Byte) : (emit f s).inbox = s.inbox := rfl
@[simp] theorem emit_out (f : List Byte) : (emit f s).out = { s.out with frames := s.out.frames ++ [f] } := rfl

/-! ### answer -/

@[simp] theorem answer_buf (a : Answer) : (answer a s).buf = s.buf := rfl
@[simp] theorem answer_status (a : Answer) : (answer a s).status = s.status := rfl
@[simp] theorem answer_pend (a : Answer) : (answer a s).pend = s.pend := rfl
@[simp] theorem answer_age (a : Answer) : (answer a s).age = s.age := rfl
@[simp] theorem answer_holdV (a : Answer) : (answer a s).holdV = s.holdV := rfl
@[simp] theorem answer_holdT (a : Answer) : (answer a s).holdT = s.holdT := rfl
@[simp] theorem answer_wait (a : Answer) : (answer a s).wait = s.wait := rfl
@[simp] theorem answer_cellSeen (a : Answer) : (answer a s).cellSeen = s.cellSeen := rfl
@[simp] theorem answer_cellAge (a : Answer) : (answer a s).cellAge = s.cellAge := rfl
@[simp] theorem answer_cfgProto (a : Answer) : (answer a s).cfgProto = s.cfgProto := rfl
@[simp] theorem answer_cfgRefresh (a : Answer) : (answer a s).cfgRefresh = s.cfgRefresh := rfl
@[simp] theorem answer_cfgTmo (a : Answer) : (answer a s).cfgTmo = s.cfgTmo := rfl
@[simp] theorem answer_evt (a : Answer) : (answer a s).evt = s.evt := rfl
@[simp] theorem answer_params (a : Answer) : (answer a s).params = s.params := rfl
@[simp] theorem answer_statusBefore (a : Answer) : (answer a s).statusBefore = s.statusBefore := rfl
@[simp] theorem answer_serial (a : Answer) : (answer a s).serial = s.serial := rfl
@[simp] theorem answer_inbox (a : Answer) : (answer a s).inbox = s.inbox := rfl
@[simp] theorem answer_out (a : Answer) : (answer a s).out = { s.out with answer := some a } := rfl

/-! ### clearBuf -/

@[simp] theorem clearBuf_buf : (clearBuf s).buf = [] := rfl
@[simp] theorem clearBuf_status : (clearBuf s).status = s.status := rfl
@[simp] theorem clearBuf_pend : (clearBuf s).pend = s.pend := rfl
@[simp] theorem clearBuf_age : (clearBuf s).age = s.age := rfl
@[simp] theorem clearBuf_holdV : (clearBuf s).holdV = s.holdV := rfl
@[simp] theorem clearBuf_holdT : (clearBuf s).holdT = s.holdT := rfl
@[simp] theorem clearBuf_wait : (clearBuf s).wait = s.wait := rfl
@[simp] theorem clearBuf_cellSeen : (clearBuf s).cellSeen = s.cellSeen := rfl
@[simp] theorem clearBuf_cellAge : (clearBuf s).cellAge = s.cellAge := rfl
@[simp] theorem clearBuf_cfgProto : (clearBuf s).cfgProto = s.cfgProto := rfl
@[simp] theorem clearBuf_cfgRefresh : (clearBuf s).cfgRefresh = s.cfgRefresh := rfl
@[simp] theorem clearBuf_cfgTmo : (clearBuf s).cfgTmo = s.cfgTmo := rfl
@[simp] theorem clearBuf_evt : (clearBuf s).evt = s.evt := rfl
@[simp] theorem clearBuf_params : (clearBuf s).params = s.params := rfl
@[simp] theorem clearBuf_statusBefore : (clearBuf s).statusBefore = s.statusBefore := rfl
@[simp] theorem clearBuf_serial : (clearBuf s).serial = s.serial := rfl
@[simp] theorem clearBuf_inbox : (clearBuf s).inbox = s.inbox := rfl
@[simp] theorem clearBuf_out : (clearBuf s).out = s.out := rfl

/-! ### appendBuf -/

@[simp] theorem appendBuf_buf (c : List Byte) : (appendBuf c s).buf = s.buf ++ c := rfl
@[simp] theorem appendBuf_status (c : List Byte) : (appendBuf c s).status = s.status := rfl
@[simp] theorem appendBuf_pend (c : List Byte) : (appendBuf c s).pend = s.pend := rfl
@[simp] theorem appendBuf_age (c : List Byte) : (appendBuf c s).age = s.age := rfl
@[simp] theorem appendBuf_holdV (c : List Byte) : (appendBuf c s).holdV = s.holdV := rfl
@[simp] theorem appendBuf_holdT (c : List Byte) : (appendBuf c s).holdT = s.holdT := rfl
@[simp] theorem appendBuf_wait (c : List Byte) : (appendBuf c s).wait = s.wait := rfl
@[simp] theorem appendBuf_cellSeen (c : List Byte) : (appendBuf c s).cellSeen = s.cellSeen := rfl
@[simp] theorem appendBuf_cellAge (c : List Byte) : (appendBuf c s).cellAge = s.cellAge := rfl
@[simp] theorem appendBuf_cfgProto (c : List Byte) : (appendBuf c s).cfgProto = s.cfgProto := rfl
@[simp] theorem appendBuf_cfgRefresh (c : List Byte) : (appendBuf c s).cfgRefresh = s.cfgRefresh := rfl
@[simp] theorem appendBuf_cfgTmo (c : List Byte) : (appendBuf c s).cfgTmo = s.cfgTmo := rfl
@[simp] theorem appendBuf_evt (c : List Byte) : (appendBuf c s).evt = s.evt := rfl
@[simp] theorem appendBuf_params (c : List Byte) : (appendBuf c s).params = s.params := rfl
@[simp] theorem appendBuf_statusBefore (c : List Byte) : (appendBuf c s).statusBefore = s.statusBefore := rfl
@[simp] theorem appendBuf_serial (c : List Byte) : (appendBuf c s).serial = s.serial := rfl
@[simp] theorem appendBuf_inbox (c : List Byte) : (appendBuf c s).inbox = s.inbox := rfl
@[simp] theorem appendBuf_out (c : List Byte) : (appendBuf c s).out = s.out := rfl

/-! ### setTag -/

@[simp] theorem setTag_buf (t : Tag) : (setTag t s).buf = s.buf := rfl
@[simp] theorem setTag_status (t : Tag) : (setTag t s).status = s.status := rfl
@[simp] theorem setTag_pend (t : Tag) : (setTag t s).pend = t := rfl
@[simp] theorem setTag_age (t : Tag) : (setTag t s).age = 0 := rfl
@[simp] theorem setTag_holdV (t : Tag) : (setTag t s).holdV = s.holdV := rfl
@[simp] theorem setTag_holdT (t : Tag) : (setTag t s).holdT = s.holdT := rfl
@[simp] theorem setTag_wait (t : Tag) : (setTag t s).wait = s.wait := rfl
@[simp] theorem setTag_cellSeen (t : Tag) : (setTag t s).cellSeen = s.cellSeen := rfl
@[simp] theorem setTag_cellAge (t : Tag) : (setTag t s).cellAge = s.cellAge := rfl
@[simp] theorem setTag_cfgProto (t : Tag) : (setTag t s).cfgProto = s.cfgProto := rfl
@[simp] theorem setTag_cfgRefresh (t : Tag) : (setTag t s).cfgRefresh = s.cfgRefresh := rfl
@[simp] theorem setTag_cfgTmo (t : Tag) : (setTag t s).cfgTmo = s.cfgTmo := rfl
@[simp] theorem setTag_evt (t : Tag) : (setTag t s).evt = s.evt := rfl
@[simp] theorem setTag_params (t : Tag) : (setTag t s).params = s.params := rfl
@[simp] theorem setTag_statusBefore (t : Tag) : (setTag t s).statusBefore = s.statusBefore := rfl
@[simp] theorem setTag_serial (t : Tag) : (setTag t s).serial = s.serial := rfl
@[simp] theorem setTag_inbox (t : Tag) : (setTag t s).inbox = s.inbox := rfl
@[simp] theorem setTag_out (t : Tag) : (setTag t s).out = s.out := rfl

/-! ### clearHold -/

@[simp] theorem clearHold_buf : (clearHold s).buf = s.buf := rfl
@[simp] theorem clearHold_status : (clearHold s).status = s.status := rfl
@[simp] theorem clearHold_pend : (clearHold s).pend = s.pend := rfl
@[simp] theorem clearHold_age : (clearHold s).age = s.age := rfl
@[simp] theorem clearHold_holdV : (clearHold s).holdV = false := rfl
@[simp] theorem clearHold_holdT : (clearHold s).holdT = 0 := rfl
@[simp] theorem clearHold_wait : (clearHold s).wait = 0 := rfl
@[simp] theorem clearHold_cellSeen : (clearHold s).cellSeen = s.cellSeen := rfl
@[simp] theorem clearHold_cellAge : (clearHold s).cellAge = s.cellAge := rfl
@[simp] theorem clearHold_cfgProto : (clearHold s).cfgProto = s.cfgProto := rfl
@[simp] theorem clearHold_cfgRefresh : (clearHold s).cfgRefresh = s.cfgRefresh := rfl
@[simp] theorem clearHold_cfgTmo : (clearHold s).cfgTmo = s.cfgTmo := rfl
@[simp] theorem clearHold_evt : (clearHold s).evt = s.evt := rfl
@[simp] theorem clearHold_params : (clearHold s).params = s.params := rfl
@[simp] theorem clearHold_statusBefore : (clearHold s).statusBefore = s.statusBefore := rfl
@[simp] theorem clearHold_serial : (clearHold s).serial = s.serial := rfl
@[simp] theorem clearHold_inbox : (clearHold s).inbox = s.inbox := rfl
@[simp] theorem clearHold_out : (clearHold s).out = s.out := rfl

/-! ### holdRequest -/

@[simp] theorem holdRequest_buf (t : Tag) : (holdRequest t s).buf = s.buf := rfl
@[simp] theorem holdRequest_status (t : Tag) : (holdRequest t s).status = s.status := rfl
@[simp] theorem holdRequest_pend (t : Tag) : (holdRequest t s).pend = s.pend := rfl
@[simp] theorem holdRequest_age (t : Tag) : (holdRequest t s).age = s.age := rfl
@[simp] theorem holdRequest_holdV (t : Tag) : (holdRequest t s).holdV = true := rfl
@[simp] theorem holdRequest_holdT (t : Tag) : (holdRequest t s).holdT = t := rfl
@[simp] theorem holdRequest_wait (t : Tag) : (holdRequest t s).wait = 0 := rfl
@[simp] theorem holdRequest_cellSeen (t : Tag) : (holdRequest t s).cellSeen = s.cellSeen := rfl
@[simp] theorem holdRequest_cellAge (t : Tag) : (holdRequest t s).cellAge = s.cellAge := rfl
@[simp] theorem holdRequest_cfgProto (t : Tag) : (holdRequest t s).cfgProto = s.cfgProto := rfl
@[simp] theorem holdRequest_cfgRefresh (t : Tag) : (holdRequest t s).cfgRefresh = s.cfgRefresh := rfl
@[simp] theorem holdRequest_cfgTmo (t : Tag) : (holdRequest t s).cfgTmo = s.cfgTmo := rfl
@[simp] theorem holdRequest_evt (t : Tag) : (holdRequest t s).evt = s.evt := rfl
@[simp] theorem holdRequest_params (t : Tag) : (holdRequest t s).params = s.params := rfl
@[simp] theorem holdRequest_statusBefore (t : Tag) : (holdRequest t s).statusBefore = s.statusBefore := rfl
@[simp] theorem holdRequest_serial (t : Tag) : (holdRequest t s).serial = s.serial := rfl
@[simp] theorem holdRequest_inbox (t : Tag) : (holdRequest t s).inbox = s.inbox := rfl
@[simp] theorem holdRequest_out (t : Tag) : (holdRequest t s).out = s.out := rfl

/-! ### writeSt -/

@[simp] theorem writeSt_buf (r : Setting) (v : W32) : (writeSt r v s).buf = s.buf := rfl
@[simp] theorem writeSt_status (r : Setting) (v : W32) : (writeSt r v s).status = { s.status with st := s.status.st.set r ⟨v, true⟩ } := rfl
@[simp] theorem writeSt_pend (r : Setting) (v : W32) : (writeSt r v s).pend = s.pend := rfl
@[simp] theorem writeSt_age (r : Setting) (v : W32) : (writeSt r v s).age = s.age := rfl
@[simp] theorem writeSt_holdV (r : Setting) (v : W32) : (writeSt r v s).holdV = s.holdV := rfl
@[simp] theorem writeSt_holdT (r : Setting) (v : W32) : (writeSt r v s).holdT = s.holdT := rfl
@[simp] theorem writeSt_wait (r : Setting) (v : W32) : (writeSt r v s).wait = s.wait := rfl
@[simp] theorem writeSt_cellSeen (r : Setting) (v : W32) : (writeSt r v s).cellSeen = s.cellSeen := rfl
@[simp] theorem writeSt_cellAge (r : Setting) (v : W32) : (writeSt r v s).cellAge = s.cellAge := rfl
@[simp] theorem writeSt_cfgProto (r : Setting) (v : W32) : (writeSt r v s).cfgProto = s.cfgProto := rfl
@[simp] theorem writeSt_cfgRefresh (r : Setting) (v : W32) : (writeSt r v s).cfgRefresh = s.cfgRefresh := rfl
@[simp] theorem writeSt_cfgTmo (r : Setting) (v : W32) : (writeSt r v s).cfgTmo = s.cfgTmo := rfl
@[simp] theorem writeSt_evt (r : Setting) (v : W32) : (writeSt r v s).evt = s.evt := rfl
@[simp] theorem writeSt_params (r : Setting) (v : W32) : (writeSt r v s).params = s.params := rfl
@[simp] theorem writeSt_statusBefore (r : Setting) (v : W32) : (writeSt r v s).statusBefore = s.statusBefore := rfl
@[simp] theorem writeSt_serial (r : Setting) (v : W32) : (writeSt r v s).serial = s.serial := rfl
@[simp] theorem writeSt_inbox (r : Setting) (v : W32) : (writeSt r v s).inbox = s.inbox := rfl
@[simp] theorem writeSt_out (r : Setting) (v : W32) : (writeSt r v s).out = s.out := rfl

/-! ### writeCv -/

@[simp] theorem writeCv_buf (k : Nat) (v : W16) : (writeCv k v s).buf = s.buf := rfl
@[simp] theorem writeCv_status (k : Nat) (v : W16) : (writeCv k v s).status = { s.status with cv := s.status.cv.set (k - 1) ⟨v, true⟩ } := rfl
@[simp] theorem writeCv_pend (k : Nat) (v : W16) : (writeCv k v s).pend = s.pend := rfl
@[simp] theorem writeCv_age (k : Nat) (v : W16) : (writeCv k v s).age = s.age := rfl
@[simp] theorem writeCv_holdV (k : Nat) (v : W16) : (writeCv k v s).holdV = s.holdV := rfl
@[simp] theorem writeCv_holdT (k : Nat) (v : W16) : (writeCv k v s).holdT = s.holdT := rfl
@[simp] theorem writeCv_wait (k : Nat) (v : W16) : (writeCv k v s).wait = s.wait := rfl
@[simp] theorem writeCv_cellSeen (k : Nat) (v : W16) : (writeCv k v s).cellSeen = s.cellSeen := rfl
@[simp] theorem writeCv_cellAge (k : Nat) (v : W16) : (writeCv k v s).cellAge = s.cellAge := rfl
@[simp] theorem writeCv_cfgProto (k : Nat) (v : W16) : (writeCv k v s).cfgProto = s.cfgProto := rfl
@[simp] theorem writeCv_cfgRefresh (k : Nat) (v : W16) : (writeCv k v s).cfgRefresh = s.cfgRefresh := rfl
@[simp] theorem writeCv_cfgTmo (k : Nat) (v : W16) : (writeCv k v s).cfgTmo = s.cfgTmo := rfl
@[simp] theorem writeCv_evt (k : Nat) (v : W16) : (writeCv k v s).evt = s.evt := rfl
@[simp] theorem writeCv_params (k : Nat) (v : W16) : (writeCv k v s).params = s.params := rfl
@[simp] theorem writeCv_statusBefore (k : Nat) (v : W16) : (writeCv k v s).statusBefore = s.statusBefore := rfl
@[simp] theorem writeCv_serial (k : Nat) (v : W16) : (writeCv k v s).serial = s.serial := rfl
@[simp] theorem writeCv_inbox (k : Nat) (v : W16) : (writeCv k v s).inbox = s.inbox := rfl
@[simp] theorem writeCv_out (k : Nat) (v : W16) : (writeCv k v s).out = s.out := rfl

/-! ### acceptCells -/

@[simp] theorem acceptCells_buf : (acceptCells s).buf = s.buf := rfl
@[simp] theorem acceptCells_status : (acceptCells s).status = s.status := rfl
@[simp] theorem acceptCells_pend : (acceptCells s).pend = s.pend := rfl
@[simp] theorem acceptCells_age : (acceptCells s).age = s.age := rfl
@[simp] theorem acceptCells_holdV : (acceptCells s).holdV = s.holdV := rfl
@[simp] theorem acceptCells_holdT : (acceptCells s).holdT = s.holdT := rfl
@[simp] theorem acceptCells_wait : (acceptCells s).wait = s.wait := rfl
@[simp] theorem acceptCells_cellSeen : (acceptCells s).cellSeen = true := rfl
@[simp] theorem acceptCells_cellAge : (acceptCells s).cellAge = 0 := rfl
@[simp] theorem acceptCells_cfgProto : (acceptCells s).cfgProto = s.cfgProto := rfl
@[simp] theorem acceptCells_cfgRefresh : (acceptCells s).cfgRefresh = s.cfgRefresh := rfl
@[simp] theorem acceptCells_cfgTmo : (acceptCells s).cfgTmo = s.cfgTmo := rfl
@[simp] theorem acceptCells_evt : (acceptCells s).evt = s.evt := rfl
@[simp] theorem acceptCells_params : (acceptCells s).params = s.params := rfl
@[simp] theorem acceptCells_statusBefore : (acceptCells s).statusBefore = s.statusBefore := rfl
@[simp] theorem acceptCells_serial : (acceptCells s).serial = s.serial := rfl
@[simp] theorem acceptCells_inbox : (acceptCells s).inbox = s.inbox := rfl
@[simp] theorem acceptCells_out : (acceptCells s).out = s.out := rfl

/-! ### markFeed -/

@[simp] theorem markFeed_buf : (markFeed s).buf = s.buf := rfl
@[simp] theorem markFeed_status : (markFeed s).status = s.status := rfl
@[simp] theorem markFeed_pend : (markFeed s).pend = s.pend := rfl
@[simp] theorem markFeed_age : (markFeed s).age = s.age := rfl
@[simp] theorem markFeed_holdV : (markFeed s).holdV = s.holdV := rfl
@[simp] theorem markFeed_holdT : (markFeed s).holdT = s.holdT := rfl
@[simp] theorem markFeed_wait : (markFeed s).wait = s.wait := rfl
@[simp] theorem markFeed_cellSeen : (markFeed s).cellSeen = s.cellSeen := rfl
@[simp] theorem markFeed_cellAge : (markFeed s).cellAge = s.cellAge := rfl
@[simp] theorem markFeed_cfgProto : (markFeed s).cfgProto = s.cfgProto := rfl
@[simp] theorem markFeed_cfgRefresh : (markFeed s).cfgRefresh = s.cfgRefresh := rfl
@[simp] theorem markFeed_cfgTmo : (markFeed s).cfgTmo = s.cfgTmo := rfl
@[simp] theorem markFeed_evt : (markFeed s).evt = s.evt := rfl
@[simp] theorem markFeed_params : (markFeed s).params = s.params := rfl
@[simp] theorem markFeed_statusBefore : (markFeed s).statusBefore = s.status := rfl
@[simp] theorem markFeed_serial : (markFeed s).serial = s.serial := rfl
@[simp] theorem markFeed_inbox : (markFeed s).inbox = s.inbox := rfl
@[simp] theorem markFeed_out : (markFeed s).out = s.out := rfl

/-! ### beginOp -/

@[simp] theorem beginOp_buf (rest : List PortEvent) : (beginOp rest s).buf = s.buf := rfl
@[simp] theorem beginOp_status (rest : List PortEvent) : (beginOp rest s).status = s.status := rfl
@[simp] theorem beginOp_pend (rest : List PortEvent) : (beginOp rest s).pend = s.pend := rfl
@[simp] theorem beginOp_age (rest : List PortEvent) : (beginOp rest s).age = s.age := rfl
@[simp] theorem beginOp_holdV (rest : List PortEvent) : (beginOp rest s).holdV = s.holdV := rfl
@[simp] theorem beginOp_holdT (rest : List PortEvent) : (beginOp rest s).holdT = s.holdT := rfl
@[simp] theorem beginOp_wait (rest : List PortEvent) : (beginOp rest s).wait = s.wait := rfl
@[simp] theorem beginOp_cellSeen (rest : List PortEvent) : (beginOp rest s).cellSeen = s.cellSeen := rfl
@[simp] theorem beginOp_cellAge (rest : List PortEvent) : (beginOp rest s).cellAge = s.cellAge := rfl
@[simp] theorem beginOp_cfgProto (rest : List PortEvent) : (beginOp rest s).cfgProto = s.cfgProto := rfl
@[simp] theorem beginOp_cfgRefresh (rest : List PortEvent) : (beginOp rest s).cfgRefresh = s.cfgRefresh := rfl
@[simp] theorem beginOp_cfgTmo (rest : List PortEvent) : (beginOp rest s).cfgTmo = s.cfgTmo := rfl
@[simp] theorem beginOp_evt (rest : List PortEvent) : (beginOp rest s).evt = s.evt := rfl
@[simp] theorem beginOp_params (rest : List PortEvent) : (beginOp rest s).params = s.params := rfl
@[simp] theorem beginOp_statusBefore (rest : List PortEvent) : (beginOp rest s).statusBefore = s.statusBefore := rfl
@[simp] theorem beginOp_serial (rest : List PortEvent) : (beginOp rest s).serial = s.serial := rfl
@[simp] theorem beginOp_inbox (rest : List PortEvent) : (beginOp rest s).inbox = rest := rfl
@[simp] theorem beginOp_out (rest : List PortEvent) : (beginOp rest s).out = Outputs.none := rfl

/-! ### incAge -/

@[simp] theorem incAge_buf : (incAge s).buf = s.buf := rfl
@[simp] theorem incAge_status : (incAge s).status = s.status := rfl
@[simp] theorem incAge_pend : (incAge s).pend = s.pend := rfl
@[simp] theorem incAge_age : (incAge s).age = satInc s.age := rfl
@[simp] theorem incAge_holdV : (incAge s).holdV = s.holdV := rfl
@[simp] theorem incAge_holdT : (incAge s).holdT = s.holdT := rfl
@[simp] theorem incAge_wait : (incAge s).wait = s.wait := rfl
@[simp] theorem incAge_cellSeen : (incAge s).cellSeen = s.cellSeen := rfl
@[simp] theorem incAge_cellAge : (incAge s).cellAge = s.cellAge := rfl
@[simp] theorem incAge_cfgProto : (incAge s).cfgProto = s.cfgProto := rfl
@[simp] theorem incAge_cfgRefresh : (incAge s).cfgRefresh = s.cfgRefresh := rfl
@[simp] theorem incAge_cfgTmo : (incAge s).cfgTmo = s.cfgTmo := rfl
@[simp] theorem incAge_evt : (incAge s).evt = s.evt := rfl
@[simp] theorem incAge_params : (incAge s).params = s.params := rfl
@[simp] theorem incAge_statusBefore : (incAge s).statusBefore = s.statusBefore := rfl
@[simp] theorem incAge_serial : (incAge s).serial = s.serial := rfl
@[simp] theorem incAge_inbox : (incAge s).inbox = s.inbox := rfl
@[simp] theorem incAge_out : (incAge s).out = s.out := rfl

/-! ### incWait -/

@[simp] theorem incWait_buf : (incWait s).buf = s.buf := rfl
@[simp] theorem incWait_status : (incWait s).status = s.status := rfl
@[simp] theorem incWait_pend : (incWait s).pend = s.pend := rfl
@[simp] theorem incWait_age : (incWait s).age = s.age := rfl
@[simp] theorem incWait_holdV : (incWait s).holdV = s.holdV := rfl
@[simp] theorem incWait_holdT : (incWait s).holdT = s.holdT := rfl
@[simp] theorem incWait_wait : (incWait s).wait = satInc s.wait := rfl
@[simp] theorem incWait_cellSeen : (incWait s).cellSeen = s.cellSeen := rfl
@[simp] theorem incWait_cellAge : (incWait s).cellAge = s.cellAge := rfl
@[simp] theorem incWait_cfgProto : (incWait s).cfgProto = s.cfgProto := rfl
@[simp] theorem incWait_cfgRefresh : (incWait s).cfgRefresh = s.cfgRefresh := rfl
@[simp] theorem incWait_cfgTmo : (incWait s).cfgTmo = s.cfgTmo := rfl
@[simp] theorem incWait_evt : (incWait s).evt = s.evt := rfl
@[simp] theorem incWait_params : (incWait s).params = s.params := rfl
@[simp] theorem incWait_statusBefore : (incWait s).statusBefore = s.statusBefore := rfl
@[simp] theorem incWait_serial : (incWait s).serial = s.serial := rfl
@[simp] theorem incWait_inbox : (incWait s).inbox = s.inbox := rfl
@[simp] theorem incWait_out : (incWait s).out = s.out := rfl

end Sys2Proof.Machine
end

