-- ==== Sys2Proof/Laws/Ops.lean ====
section
/-! SUPPORT. One lemma per shared operation that says once everything it can do; the provers cite these instead of
unfolding the operation. -/

namespace Sys2Proof.Machine

/-- The tag-clear rule either clears a matching tag or does nothing (R160). -/
theorem matchTag_eq (g : Tag) (s : State) :
    matchTag g s = { s with pend := if s.pend = g then 0 else s.pend, age := if s.pend = g then 0 else s.age } := by
  unfold matchTag setTag
  split <;> rfl

/-- The tag-clear rule, by case (R160). -/
theorem matchTag_cases (g : Tag) (s : State) :
    (s.pend = g ∧ matchTag g s = setTag 0 s) ∨ (s.pend ≠ g ∧ matchTag g s = s) := by
  unfold matchTag
  by_cases h : s.pend = g
  · exact .inl ⟨h, if_pos h⟩
  · exact .inr ⟨h, if_neg h⟩

/-- The cell loop writes the cell file and nothing else (R156). -/
theorem decodeCells_eq (f : List Byte) (n : Nat) (s : State) :
    decodeCells f n s = { s with status := { s.status with cv := (decodeCells f n s).status.cv } } := by
  induction n with
  | zero => rfl
  | succ n ih =>
    rw [decodeCells, writeCv]
    conv_lhs => rw [ih]

theorem decodeCells_length (f : List Byte) (n : Nat) (s : State) :
    (decodeCells f n s).status.cv.length = s.status.cv.length := by
  induction n with
  | zero => rfl
  | succ n ih => simp [decodeCells, ih]

/-- Which cell holds what after the cell loop: the first `n` their fields, valid, the others what they held (R156). -/
theorem decodeCells_getElem? (f : List Byte) (n i : Nat) (s : State) :
    (decodeCells f n s).status.cv[i]?
      = if i < n ∧ i < s.status.cv.length then some ⟨field16 f i, true⟩ else s.status.cv[i]? := by
  induction n with
  | zero => simp [decodeCells]
  | succ n ih =>
    simp only [decodeCells, writeCv_status, Nat.add_sub_cancel, List.getElem?_set, decodeCells_length, ih]
    by_cases h : n = i
    · subst h
      by_cases h' : n < s.status.cv.length
      · simp [h']
      · simp [h']
    · simp only [h, if_false]
      by_cases h' : i < s.status.cv.length
      · have : i < n ↔ i < n + 1 := by omega
        simp [this]
      · simp [h']

/-- SETTINGS writes the eight registers and nothing else (R153). -/
theorem decodeSettings_eq (f : List Byte) (s : State) :
    decodeSettings f s = { s with
      status := { s.status with
        st := ⟨⟨field32 f s.params.off.uvp, true⟩, ⟨field32 f s.params.off.uvpr, true⟩,
          ⟨field32 f s.params.off.ovp, true⟩, ⟨field32 f s.params.off.ovpr, true⟩,
          ⟨field32 f s.params.off.baltrig, true⟩, ⟨field32 f s.params.off.pwroff, true⟩,
          ⟨field32 f s.params.off.maxchg, true⟩, ⟨field32 f s.params.off.cellcnt, true⟩⟩ } } := rfl

/-- CELLINFO has three outcomes: limited, out of range, decoded (R155 to R157). -/
theorem decodeCellinfo_cases (f : List Byte) (s : State) :
    (limited s = true ∧ decodeCellinfo f s = raise (.rlm s.cellAge) s)
    ∨ (limited s = false ∧ s.params.ncellMax < s.status.st.cellcnt.val.toNat
        ∧ decodeCellinfo f s = raise (.rng s.status.st.cellcnt.val) s)
    ∨ (limited s = false ∧ s.status.st.cellcnt.val.toNat ≤ s.params.ncellMax
        ∧ decodeCellinfo f s = matchTag 2 (decodeCells f s.status.st.cellcnt.val.toNat (acceptCells s))) := by
  unfold decodeCellinfo
  cases h : limited s
  · by_cases h' : s.params.ncellMax < s.status.st.cellcnt.val.toNat
    · exact .inr (.inl ⟨rfl, h', by simp [h']⟩)
    · exact .inr (.inr ⟨rfl, by omega, by simp [h']⟩)
  · exact .inl ⟨rfl, rfl⟩

/-- The rate limit as R155 writes it. -/
theorem limited_iff (s : State) :
    limited s = true ↔ s.cfgRefresh ≠ 0 ∧ s.cellSeen = true ∧ s.cellAge.toNat < s.cfgRefresh.toNat := by
  simp [limited, and_assoc]

/-- Kind selection succeeds on the three kind bytes only (R93, R104). -/
theorem decodeKind_cases (k : Byte) :
    (k = 1 ∧ decodeKind k = .ok .settings) ∨ (k = 2 ∧ decodeKind k = .ok .cellinfo)
    ∨ (k = 3 ∧ decodeKind k = .ok .deviceinfo)
    ∨ (k ≠ 1 ∧ k ≠ 2 ∧ k ≠ 3 ∧ decodeKind k = .error (.unknownKind k)) := by
  unfold decodeKind
  by_cases h1 : k = 1
  · exact .inl ⟨h1, by simp [h1]⟩
  by_cases h2 : k = 2
  · exact .inr (.inl ⟨h2, by simp [h2]⟩)
  by_cases h3 : k = 3
  · exact .inr (.inr (.inl ⟨h3, by simp [h3]⟩))
  exact .inr (.inr (.inr ⟨h1, h2, h3, by rw [if_neg h1, if_neg h2, if_neg h3]⟩))

/-- DISPATCH has five outcomes (R150 to R152, R159). -/
theorem dispatch_cases (f : List Byte) (s : State) :
    (s.cfgProto ≠ s.params.protoImpl ∧ dispatch f s = raise (.ver s.cfgProto) s)
    ∨ (s.cfgProto = s.params.protoImpl ∧ byteAt f 4 = 1 ∧ dispatch f s = decodeSettings f s)
    ∨ (s.cfgProto = s.params.protoImpl ∧ byteAt f 4 = 2 ∧ dispatch f s = decodeCellinfo f s)
    ∨ (s.cfgProto = s.params.protoImpl ∧ byteAt f 4 = 3 ∧ dispatch f s = decodeDeviceinfo s)
    ∨ (s.cfgProto = s.params.protoImpl ∧ byteAt f 4 ≠ 1 ∧ byteAt f 4 ≠ 2 ∧ byteAt f 4 ≠ 3
        ∧ dispatch f s = raise (.unk (byteAt f 4)) s) := by
  by_cases h : s.cfgProto = s.params.protoImpl
  · obtain ⟨hk, e⟩ | ⟨hk, e⟩ | ⟨hk, e⟩ | ⟨h1, h2, h3, e⟩ := decodeKind_cases (byteAt f 4)
    · exact .inr (.inl ⟨h, hk, by rw [dispatch, if_neg (not_not.mpr h), Config.kindOff, e]⟩)
    · exact .inr (.inr (.inl ⟨h, hk, by rw [dispatch, if_neg (not_not.mpr h), Config.kindOff, e]⟩))
    · exact .inr (.inr (.inr (.inl ⟨h, hk, by rw [dispatch, if_neg (not_not.mpr h), Config.kindOff, e]⟩)))
    · exact .inr (.inr (.inr (.inr ⟨h, h1, h2, h3,
        by rw [dispatch, if_neg (not_not.mpr h), Config.kindOff, e]⟩)))
  · exact .inl ⟨h, by simp [dispatch, h]⟩

/-- What DISPATCH can write (R150 to R160). -/
theorem dispatch_frame (f : List Byte) (s : State) :
    dispatch f s = { s with
      status := (dispatch f s).status, pend := (dispatch f s).pend, age := (dispatch f s).age
      cellSeen := (dispatch f s).cellSeen, cellAge := (dispatch f s).cellAge, evt := (dispatch f s).evt
      out := { s.out with events := (dispatch f s).out.events } } := by
  obtain ⟨_, e⟩ | ⟨_, _, e⟩ | ⟨_, _, e⟩ | ⟨_, _, e⟩ | ⟨_, _, _, _, e⟩ := dispatch_cases f s <;> rw [e]
  · rfl
  · rfl
  · obtain ⟨_, e⟩ | ⟨_, _, e⟩ | ⟨_, _, e⟩ := decodeCellinfo_cases f s <;> rw [e]
    · rfl
    · rfl
    · rw [matchTag_eq, decodeCells_eq]; rfl
  · rw [decodeDeviceinfo, matchTag_eq]
  · rfl

/-- The sticky bits of two event lists (R231). -/
theorem evtBits_append (es fs : List Event) : evtBits (es ++ fs) = evtBits es ||| evtBits fs := by
  have key : ∀ (l : List Event) (b : BitVec 8), l.foldl (fun b e => b ||| evtBit e) b = b ||| evtBits l := by
    intro l
    induction l with
    | nil => simp [evtBits]
    | cons a l ih => intro b; simp only [evtBits, List.foldl_cons]; rw [ih, ih (0 ||| _)]; simp [BitVec.or_assoc]
  simp only [evtBits, List.foldl_append]
  rw [key]
  rfl

/-- Steps 1 to 3 of FEED in one: the state is `fedState`, the buffer is `fedBuffer` (R131 to R133). -/
theorem feedChunk_eq (c : List Byte) (s : State) :
    feedChunk c s = feedEvaluate { fedState s with buf := fedBuffer c s } := by
  have hm : beginsWithMarker c = decide (c.take 4 = [0x55, 0xAA, 0xEB, 0x90]) := by
    rw [Bool.eq_iff_iff, decide_eq_true_eq, beginsWithMarker_iff]
  unfold feedChunk feedOverflow feedMarker fedBuffer fedState
  congr 1
  rw [hm]
  by_cases ho : 320 < s.buf.length <;> by_cases hb : c.take 4 = [0x55, 0xAA, 0xEB, 0x90] <;>
    simp only [Config.maxFrame, ho, hb, decide_true, decide_false, if_true, if_false, or_true, or_false,
      Bool.false_eq_true, markFeed_buf] <;>
    rfl

/-- Step 4 of FEED has three outcomes (R134 to R136). -/
theorem feedEvaluate_cases (s : State) :
    (s.buf.length < 300 ∧ feedEvaluate s = s)
    ∨ (300 ≤ s.buf.length ∧ checksum s.buf 299 = byteAt s.buf 299
        ∧ feedEvaluate s = clearBuf (dispatch s.buf s))
    ∨ (300 ≤ s.buf.length ∧ checksum s.buf 299 ≠ byteAt s.buf 299
        ∧ feedEvaluate s = raise (.csf (checksum s.buf 299) (byteAt s.buf 299)) (clearBuf s)) := by
  unfold feedEvaluate
  by_cases h : s.buf.length < 300
  · exact .inl ⟨h, by simp [Config.minFrame, h]⟩
  by_cases h' : checksum s.buf 299 = byteAt s.buf 299
  · exact .inr (.inl ⟨by omega, h', by simp [Config.minFrame, Config.ckOff, h, h']⟩)
  · exact .inr (.inr ⟨by omega, h', by simp [Config.minFrame, Config.ckOff, h, h']⟩)

/-- BUILD's bytes (R180). -/
theorem buildFrame_eq (a l : Byte) (v : Value) :
    buildFrame a l v
      = [0xAA, 0x55, 0x90, 0xEB, a, l, v.v0, v.v1, v.v2, v.v3, 0, 0, 0, 0, 0, 0, 0, 0, 0,
          0x7A + a + l + v.v0 + v.v1 + v.v2 + v.v3] := by
  have h : checksum ([0xAA, 0x55, 0x90, 0xEB, a, l, v.v0, v.v1, v.v2, v.v3, 0, 0, 0, 0, 0, 0, 0, 0, 0] : List Byte) 19
      = 0x7A + a + l + v.v0 + v.v1 + v.v2 + v.v3 := by
    rw [checksum_eq_foldl]
    simp
  simp only [buildFrame, Config.outMarker, Value.bytes, Config.outCkOff, List.replicate, List.cons_append,
    List.nil_append, h]

/-- LAUNCH with a tag a request can have (R203). -/
theorem launch_eq (g : Tag) (s : State) (h : g = 2 ∨ g = 3) :
    launch g s = { s with
      pend := g, age := 0, holdV := false, holdT := 0, wait := 0
      evt := if s.pend = 0 then s.evt else s.evt ||| 0x40
      out := { s.out with
        frames := s.out.frames ++ [requestBytes s.params g]
        events := if s.pend = 0 then s.out.events else s.out.events ++ [.wfo s.pend] } } := by
  have h2 : cellRequestFrame = requestBytes s.params 2 := by
    simp [cellRequestFrame, buildFrame_eq, requestBytes, Value.zero, Config.addrReqCellInfo]
  have h3 : deviceRequestFrame s.params = requestBytes s.params 3 := by
    simp [deviceRequestFrame, buildFrame_eq, requestBytes, Value.zero]
  by_cases hp : s.pend = 0 <;> obtain rfl | rfl := h
  · simp only [launch, hp, ne_eq, not_true_eq_false, if_false, if_true, emitRequest, h2]
    rfl
  · simp only [launch, hp, ne_eq, not_true_eq_false, if_false, if_true, emitRequest, ← h3]
    rfl
  · simp only [launch, hp, ne_eq, not_false_eq_true, if_false, if_true, emitRequest, h2]
    rfl
  · simp only [launch, hp, ne_eq, not_false_eq_true, if_false, if_true, emitRequest, ← h3]
    rfl

/-- What LAUNCH writes, whatever the tag (R203). -/
theorem launch_frame (g : Tag) (s : State) :
    launch g s = { s with
      pend := g, age := 0, holdV := false, holdT := 0, wait := 0
      evt := (launch g s).evt
      out := { s.out with frames := (launch g s).out.frames, events := (launch g s).out.events } } := by
  unfold launch emitRequest emit clearHold setTag raise
  dsimp only
  split <;> split <;> (try split) <;> rfl

/-- REQUEST launches or holds (R202). -/
theorem request_cases (g : Tag) (s : State) :
    ((s.pend = 0 ∨ s.cfgTmo = 0) ∧ request g s = launch g s)
    ∨ (s.pend ≠ 0 ∧ s.cfgTmo ≠ 0 ∧ request g s = holdRequest g s) := by
  unfold request
  by_cases h : s.pend = 0 ∨ s.cfgTmo = 0
  · exact .inl ⟨h, if_pos h⟩
  · exact .inr ⟨(not_or.mp h).1, (not_or.mp h).2, if_neg h⟩

/-- A command is accepted exactly when nothing is held (R41). -/
theorem accept_eq (act : State → State) (s : State) : accept act s = if s.holdV = false then act s else s := by
  cases h : s.holdV <;> simp [accept, State.cmdReady, h]

/-- TICK's step 1 (R205). -/
theorem tickCellAge_eq (s : State) : tickCellAge s = { s with cellAge := tickedCellAge s } := by
  unfold tickCellAge tickedCellAge
  split <;> rfl

/-- TICK's step 2 has three outcomes (R206). -/
theorem tickTimeout_cases (s : State) :
    (s.pend = 0 ∧ tickTimeout s = s)
    ∨ (s.pend ≠ 0 ∧ min 255 (s.age.toNat + 1) < s.cfgTmo.toNat ∧ tickTimeout s = incAge s)
    ∨ (s.pend ≠ 0 ∧ s.cfgTmo.toNat ≤ min 255 (s.age.toNat + 1)
        ∧ tickTimeout s = raise (.tmo s.pend) (setTag 0 (incAge s))) := by
  unfold tickTimeout
  have e : (incAge s).age.toNat = min 255 (s.age.toNat + 1) := satInc_toNat s.age
  by_cases h : s.pend = 0
  · exact .inl ⟨h, by simp [h]⟩
  by_cases h' : s.cfgTmo.toNat ≤ min 255 (s.age.toNat + 1)
  · exact .inr (.inr ⟨h, h', by simp only [h, if_false, e, incAge_cfgTmo, h', if_true, incAge_pend]⟩)
  · exact .inr (.inl ⟨h, by omega, by simp only [h, if_false, e, incAge_cfgTmo, h']⟩)

/-- TICK's step 3 has three outcomes (R207). -/
theorem tickPoll_cases (s : State) :
    (s.holdV = false ∧ tickPoll s = s)
    ∨ (s.holdV = true ∧ (s.pend = 0 ∨ s.cfgTmo.toNat ≤ min 255 (s.wait.toNat + 1))
        ∧ tickPoll s = launch s.holdT (incWait s))
    ∨ (s.holdV = true ∧ s.pend ≠ 0 ∧ min 255 (s.wait.toNat + 1) < s.cfgTmo.toNat ∧ tickPoll s = incWait s) := by
  unfold tickPoll
  have e : (incWait s).wait.toNat = min 255 (s.wait.toNat + 1) := satInc_toNat s.wait
  cases hv : s.holdV
  · exact .inl ⟨rfl, rfl⟩
  by_cases h : s.pend = 0 ∨ s.cfgTmo.toNat ≤ min 255 (s.wait.toNat + 1)
  · exact .inr (.inl ⟨rfl, h, by simp only [if_true, incWait_pend, incWait_cfgTmo, e, h, incWait_holdT]⟩)
  · have h' := not_or.mp h
    exact .inr (.inr ⟨rfl, h'.1, by omega,
      by simp only [if_true, incWait_pend, incWait_cfgTmo, e, h, if_false]⟩)

/-- The cells of BUF are always in canonical form, so every operation on BUF keeps it (log 18). -/
theorem memory_cells_wf (b : List Byte) : Memory.wf (Memory.cells b) = true := by
  have h : (Memory.cells b).map Prod.fst = List.range b.length := by
    simp [Memory.cells, List.map_fst_zip]
  rw [Memory.wf, h, decide_eq_true_eq]
  exact List.pairwise_lt_range

/-- Equal cells are equal buffers (log 18). -/
theorem memory_cells_injective (b c : List Byte) (h : Memory.cells b = Memory.cells c) : b = c := by
  have hs : ∀ x : List Byte, (Memory.cells x).map Prod.snd = x := fun x => by
    simp [Memory.cells, List.map_snd_zip]
  rw [← hs b, ← hs c, h]

end Sys2Proof.Machine
end

