-- ==== Sys2Proof/Laws/PerInstr.lean ====
section
/-! SUPPORT. Statements made of every instruction, one lemma per constructor: the code of an instruction has the
format that the opcode table gives its row (R90, R112). -/

namespace Sys2Proof.Laws

/-- The code an instruction is encoded to is of the format of its row (R90). -/
def EncodingFormat.Statement (i : Instr) : Prop := (encode i).format = i.format

theorem EncodingFormat.settings (f : List Byte) : EncodingFormat.Statement (.settings f) := rfl

theorem EncodingFormat.cellinfo (f : List Byte) : EncodingFormat.Statement (.cellinfo f) := rfl

theorem EncodingFormat.deviceinfo (f : List Byte) : EncodingFormat.Statement (.deviceinfo f) := rfl

theorem EncodingFormat.writeReg (a l : Byte) (v : Value) : EncodingFormat.Statement (.writeReg a l v) := rfl

theorem EncodingFormat.reqCellInfo : EncodingFormat.Statement .reqCellInfo := rfl

theorem EncodingFormat.reqDeviceInfo : EncodingFormat.Statement .reqDeviceInfo := rfl

theorem EncodingFormat.feed (c : List Byte) : EncodingFormat.Statement (.feed c) := rfl

theorem EncodingFormat.tick : EncodingFormat.Statement .tick := rfl

theorem EncodingFormat.cmd (w : CmdWord) : EncodingFormat.Statement (.cmd w) := rfl

theorem EncodingFormat.sessionReset : EncodingFormat.Statement .sessionReset := rfl

theorem EncodingFormat.reset : EncodingFormat.Statement .reset := rfl

theorem EncodingFormat.statusRead (o : Bool) : EncodingFormat.Statement (.statusRead o) := rfl

theorem EncodingFormat.cfgWrite (c : CfgWrite) : EncodingFormat.Statement (.cfgWrite c) := rfl

theorem EncodingFormat.checksum (s : List Byte) (n : Nat) : EncodingFormat.Statement (.checksum s n) := rfl

theorem EncodingFormat.build (a l : Byte) (v : Value) : EncodingFormat.Statement (.build a l v) := rfl

end Sys2Proof.Laws
end

