-- ==== Sys2Proof/Tests/Slice0.lean ====
section
/-! SUPPORT. Tests: ill-formed terms, words written out from the spec's encodings, vectors of 95_test_vectors.md (their
names stand in the docstrings), and for every statement with hypotheses a witness that meets them. The expected results
are the spec's own bytes and numbers. -/

namespace Sys2Proof.Tests

-- One theorem at a time: each kernel evaluation below would else hold a thread and its stack.
set_option Elab.async false

open Sys2Proof Sys2Proof.Machine

/-! ### The named frames of 95_test_vectors.md part 0, checksum byte included -/

/-- SET2. -/
def set2 : List Byte :=
  [0x55, 0xAA, 0xEB, 0x90, 0x01] ++ List.replicate 5 0
    ++ [0x54, 0x0B, 0, 0, 0xB8, 0x0B, 0, 0, 0x42, 0x0E, 0, 0, 0x10, 0x0E, 0, 0, 0x48, 0x0D, 0, 0]
    ++ List.replicate 16 0 ++ [0xC4, 0x09, 0, 0, 0xA8, 0x61, 0, 0] ++ List.replicate 60 0 ++ [0x02, 0, 0, 0]
    ++ List.replicate 181 0 ++ [0x38]

/-- CELL_A. -/
def cellA : List Byte :=
  [0x55, 0xAA, 0xEB, 0x90, 0x02, 0x00, 0x10, 0x27, 0x88, 0x13] ++ List.replicate 289 0 ++ [0x4E]

/-- CELL_A_BAD. -/
def cellABad : List Byte :=
  [0x55, 0xAA, 0xEB, 0x90, 0x02, 0x00, 0x10, 0x27, 0x88, 0x13] ++ List.replicate 289 0 ++ [0x4F]

/-- DEV. -/
def dev : List Byte := [0x55, 0xAA, 0xEB, 0x90, 0x03] ++ List.replicate 294 0 ++ [0x7D]

/-- NOMARK. -/
def noMark : List Byte := [0, 0, 0, 0, 0x03] ++ List.replicate 294 0 ++ [0x03]

/-- UNK04. -/
def unk04 : List Byte := [0x55, 0xAA, 0xEB, 0x90, 0x04] ++ List.replicate 294 0 ++ [0x7E]

/-- The outcome is a next state with the property. -/
def nextWith (o : Host.Outcome State Fault Refusal) (p : State → Bool) : Bool :=
  match o with
  | .next t => p t
  | .fault _ => false
  | .refused _ => false

/-- The state after RESET with the settings of SET2. -/
def withSet2 : State :=
  { State.reset with
    status := { State.reset.status with
      st := ⟨⟨2900, true⟩, ⟨3000, true⟩, ⟨3650, true⟩, ⟨3600, true⟩, ⟨3400, true⟩, ⟨2500, true⟩, ⟨25000, true⟩,
        ⟨2, true⟩⟩ } }

/-- The state after RESET but for the correlator's registers and CFG_TMO. -/
def correlator (p : Tag) (a : Byte) (v : Bool) (g : Tag) (w m : Byte) : State :=
  { State.reset with pend := p, age := a, holdV := v, holdT := g, wait := w, cfgTmo := m }

/-- Which of these states meet the invariant. -/
theorem correlator_inv (p : Tag) (a : Byte) (v : Bool) (g : Tag) (w m : Byte) (h1 : p ≠ 1) (h2 : p = 0 → a = 0)
    (h3 : v = true → g = 2 ∨ g = 3) (h4 : v = false → g = 0 ∧ w = 0)
    (h5 : p ≠ 0 → v = true → w.toNat ≤ a.toNat) : (correlator p a v g w m).Inv where
  len := by simp [correlator, State.reset, State.resetWith]
  pendLegal := h1
  ageIdle := h2
  holdTag := h3
  holdClear := h4
  waitLeAge := h5
  unseenAge := fun _ => rfl
  status := ⟨by simp [correlator, State.reset, State.resetWith, StatusModel.cleared], fun r _ => by cases r <;> rfl,
    by simp [correlator, State.reset, State.resetWith, StatusModel.cleared]⟩
  statusBefore := ⟨by simp [correlator, State.reset, State.resetWith, StatusModel.cleared],
    fun r _ => by cases r <;> rfl, by simp [correlator, State.reset, State.resetWith, StatusModel.cleared]⟩

/-- A request pending (tag 2) and another held (tag 3), as in Q3 after its fifth line. -/
def held : State := correlator 2 1 true 3 1 10

theorem held_inv : held.Inv :=
  correlator_inv _ _ _ _ _ _ (by decide) (by decide) (by decide) (by decide) (by decide)

/-! ### WellFormed refuses ill-formed terms -/

/-- Shorter than 300 bytes (R12, R150). -/
theorem test_wf_short : (Instr.settings (set2.take 299)).wellFormed = false := by decide +kernel

/-- Byte 4 is another kind (R152). -/
theorem test_wf_kind :
    (Instr.settings cellA).wellFormed = false ∧ (Instr.cellinfo dev).wellFormed = false
      ∧ (Instr.deviceinfo set2).wellFormed = false := by decide +kernel

/-- The checksum does not match (R121, R136). -/
theorem test_wf_checksum :
    (Instr.cellinfo cellABad).wellFormed = false ∧ (Instr.settings (set2.set 299 0x39)).wellFormed = false
      ∧ (Instr.deviceinfo (dev.set 299 0)).wellFormed = false := by decide +kernel

/-- CHECKSUM's length exceeds its bytes (R120). -/
theorem test_wf_range : (Instr.checksum [0xFF] 2).wellFormed = false := by decide

/-- The named frames of the spec are well formed. -/
theorem test_wf_good :
    (Instr.settings set2).wellFormed = true ∧ (Instr.cellinfo cellA).wellFormed = true
      ∧ (Instr.deviceinfo dev).wellFormed = true ∧ (Instr.checksum [0xFF] 1).wellFormed = true := by decide +kernel

/-! ### Decoding of words written out from the spec -/

/-- The three kinds (R93), and kind 4 refused by name (R104). -/
theorem test_decode_frames :
    decode Params.default (.frameIn set2) = .ok (.settings set2)
      ∧ decode Params.default (.frameIn cellA) = .ok (.cellinfo cellA)
      ∧ decode Params.default (.frameIn dev) = .ok (.deviceinfo dev)
      ∧ decode Params.default (.frameIn noMark) = .ok (.deviceinfo noMark)
      ∧ decode Params.default (.frameIn unk04) = .error (.unknownKind 4)
      ∧ decode Params.default (.frameIn (cellA.take 299)) = .error .shortFrame := by decide +kernel

/-- Command words bit by bit (R101, R108): `cmd_op`, address, length, `val[0]` to `val[3]`. -/
theorem test_decode_commands :
    decodeCommand 0b00_00011101_00000100_00010000_00100111_00000000_10000000#50
        = .ok (.writeReg 0x1D 0x04 ⟨0x10, 0x27, 0x00, 0x80⟩)
      ∧ decodeCommand 0b01_11111111_00000001_00000000_00000000_00000000_00000001#50 = .ok .reqCellInfo
      ∧ decodeCommand 0b10_00000000_00000000_00000000_00000000_00000000_00000000#50 = .ok .reqDeviceInfo
      ∧ decodeCommand 0b11_00000000_00000000_00000000_00000000_00000000_00000000#50 = .error .reservedCommand := by
  decide

/-- Outbound frames (R98, R99): B1, B2, B3, a wrong marker, a padding byte that is not zero. -/
theorem test_decode_outbound :
    decodeFrameOut Params.default [0xAA, 0x55, 0x90, 0xEB, 0x96, 0, 0, 0, 0, 0, 0, 0, 0, 0, 0, 0, 0, 0, 0, 0x10]
        = .ok .reqCellInfo
      ∧ decodeFrameOut Params.default [0xAA, 0x55, 0x90, 0xEB, 0x97, 0, 0, 0, 0, 0, 0, 0, 0, 0, 0, 0, 0, 0, 0, 0x11]
        = .ok .reqDeviceInfo
      ∧ decodeFrameOut Params.default [0xAA, 0x55, 0x90, 0xEB, 0x1D, 4, 1, 0, 0, 0, 0, 0, 0, 0, 0, 0, 0, 0, 0, 0x9C]
        = .ok (.writeReg 0x1D 4 ⟨1, 0, 0, 0⟩)
      ∧ decodeFrameOut Params.default [0x55, 0xAA, 0xEB, 0x90, 0x96, 0, 0, 0, 0, 0, 0, 0, 0, 0, 0, 0, 0, 0, 0, 0x10]
        = .error .badMarker
      ∧ decodeFrameOut Params.default [0xAA, 0x55, 0x90, 0xEB, 0x96, 0, 0, 0, 0, 0, 1, 0, 0, 0, 0, 0, 0, 0, 0, 0x11]
        = .error .badPadding := by decide

/-- Every operation is selected by its port (R40, R90). -/
theorem test_decode_ports :
    decodePort .rst = .reset ∧ decodePort .sessionReset = .sessionReset
      ∧ decodePort (.cfg (.refresh 0x0102)) = .cfgWrite (.refresh 0x0102)
      ∧ decodePort (.inChunk [1, 2]) = .feed [1, 2] ∧ decodePort .tick = .tick
      ∧ decodePort (.cmd 0b00_00011101_00000100_00000001_00000000_00000000_00000000#50)
        = .cmd ⟨0, 0x1D, 4, ⟨1, 0, 0, 0⟩⟩
      ∧ decodePort (.status false) = .statusRead false := by decide

/-- The internal functions are selected by their call (R108). -/
theorem test_decode_internal :
    decode Params.default (.callChecksum [1] 1) = .ok (.checksum [1] 1)
      ∧ decode Params.default (.callBuild 1 2 ⟨3, 4, 5, 6⟩) = .ok (.build 1 2 ⟨3, 4, 5, 6⟩) := by
  constructor <;> rfl

/-- The opcode table's words of the IN and OUT rows, first byte least significant. -/
theorem test_decode_table :
    ((decodeTableWord 40 0x0190EBAA55).map Instr.format = some .inFrame
      ∧ (decodeTableWord 40 0x0190EBAA55).map (fun i => decide (i = .settings (sealFrame [0x55, 0xAA, 0xEB, 0x90, 1])))
        = some true)
      ∧ (decodeTableWord 40 0x0290EBAA55).map (fun i => decide (i = .cellinfo (sealFrame [0x55, 0xAA, 0xEB, 0x90, 2])))
        = some true
      ∧ decodeTableWord 40 0x0390EBAA55 = some (.deviceinfo dev)
      ∧ decodeTableWord 152 0xEB9055AA = some (.writeReg 0 0 ⟨0, 0, 0, 0⟩)
      ∧ decodeTableWord 152 0x96EB9055AA = some .reqCellInfo
      ∧ decodeTableWord 152 0x97EB9055AA = some .reqDeviceInfo
      ∧ decodeTableWord 8 0 = some (.feed [0]) := by decide +kernel

/-! ### Vectors, one operation each -/

/-- K1 to K5, K7, K8. -/
theorem test_checksum :
    checksum [] 0 = 0 ∧ checksum [0xFF] 1 = 0xFF ∧ checksum [0xFF, 0x01] 2 = 0 ∧ checksum [0x80, 0x80] 2 = 0
      ∧ checksum [1, 2, 3, 4] 2 = 3 ∧ checksum [0x55, 0xAA, 0xEB, 0x90] 4 = 0x7A
      ∧ checksum [0xAA, 0x55, 0x90, 0xEB] 4 = 0x7A := by decide

/-- K6. -/
theorem test_checksum_long :
    nextWith (exec (.checksum (List.replicate 299 0xFF) 299) State.reset)
      (fun t => t.out.answer == some (.byte 0xD5)) = true := by decide +kernel

/-- B4 and B6. -/
theorem test_build :
    buildFrame 0xFF 0xFF ⟨0xFF, 0xFF, 0xFF, 0xFF⟩
        = [0xAA, 0x55, 0x90, 0xEB, 0xFF, 0xFF, 0xFF, 0xFF, 0xFF, 0xFF, 0, 0, 0, 0, 0, 0, 0, 0, 0, 0x74]
      ∧ buildFrame 0x96 0x04 ⟨0x10, 0x27, 0, 0⟩
        = [0xAA, 0x55, 0x90, 0xEB, 0x96, 0x04, 0x10, 0x27, 0, 0, 0, 0, 0, 0, 0, 0, 0, 0, 0, 0x4B] := by decide

/-- B3, as WRITE_REG: pending request untouched (Q7). -/
theorem test_writeReg :
    nextWith (exec (.writeReg 0x1D 0x04 ⟨1, 0, 0, 0⟩) { State.reset with pend := 2, age := 4 })
      (fun t => t.out.frames == [[0xAA, 0x55, 0x90, 0xEB, 0x1D, 4, 1, 0, 0, 0, 0, 0, 0, 0, 0, 0, 0, 0, 0, 0x9C]]
        && t.pend == 2 && t.age == 4 && !t.holdV) = true := by decide

/-- Q1, and Q12's second command. -/
theorem test_reqCellInfo :
    nextWith (exec .reqCellInfo State.reset)
        (fun t => t.pend == 2 && t.age == 0 && t.cmdReady
          && t.out.frames == [[0xAA, 0x55, 0x90, 0xEB, 0x96, 0, 0, 0, 0, 0, 0, 0, 0, 0, 0, 0, 0, 0, 0, 0x10]]) = true
      ∧ nextWith (exec .reqCellInfo { State.reset with pend := 2 })
        (fun t => t.holdV && t.holdT == 2 && t.wait == 0 && t.pend == 2 && t.out.frames == []) = true := by decide

/-- Q5's third operation: WFO with the abandoned tag, tag 3, no wait. -/
theorem test_reqDeviceInfo :
    nextWith (exec .reqDeviceInfo { State.reset with pend := 2, cfgTmo := 0 })
      (fun t => t.pend == 3 && t.evt == 0x40 && t.out.events == [.wfo 2] && !t.holdV
        && t.out.frames == [[0xAA, 0x55, 0x90, 0xEB, 0x97, 0, 0, 0, 0, 0, 0, 0, 0, 0, 0, 0, 0, 0, 0, 0x11]]) = true := by
  decide

/-- Q6: not accepted while held. Q7: `cmd_op` 3 does nothing. -/
theorem test_cmd :
    exec (.cmd ⟨0, 0x1D, 4, ⟨1, 0, 0, 0⟩⟩) held = .next held
      ∧ exec (.cmd ⟨3, 0xFF, 4, ⟨1, 0, 0, 0⟩⟩) State.reset = .next State.reset := by
  constructor <;> rfl

/-- Q4's tenth TICK: the timeout, then the held request in the same TICK. -/
theorem test_tick_timeout_then_launch :
    nextWith (exec .tick { held with age := 9, wait := 6 })
      (fun t => t.out.events == [.tmo 2] && t.evt == 0x08 && t.pend == 3 && t.age == 0 && !t.holdV && t.holdT == 0
        && t.wait == 0 && t.out.frames.length == 1) = true := by decide

/-- Q8 at the largest bound, and the saturation of CELL_AGE (F14). -/
theorem test_tick_bounds :
    nextWith (exec .tick { State.reset with pend := 2, age := 253, cfgTmo := 255 })
        (fun t => t.age == 254 && t.pend == 2) = true
      ∧ nextWith (exec .tick { State.reset with pend := 2, age := 254, cfgTmo := 255 })
        (fun t => t.age == 0 && t.pend == 0 && t.out.events == [.tmo 2]) = true
      ∧ nextWith (exec .tick { State.reset with cellSeen := true, cellAge := 65535 })
        (fun t => t.cellAge == 65535) = true := by decide

/-- F1. -/
theorem test_settings :
    nextWith (exec (.feed set2) State.reset) (fun t => t.status == withSet2.status && t.evt == 0 && t.len == 0)
      = true := by decide +kernel

/-- S1, F2, A1. -/
theorem test_cellinfo :
    nextWith (exec (.feed cellA) withSet2)
      (fun t => t.status.cell 1 == ⟨10000, true⟩ && t.status.cell 2 == ⟨5000, true⟩ && !(t.status.cell 3).valid
        && t.cellSeen && t.cellAge == 0 && t.evt == 0 && t.len == 0) = true := by decide +kernel

/-- F6b (RNG at 25 cells) and F11 (RLM at CELL_AGE 4 of 5). -/
theorem test_cellinfo_refused :
    nextWith (exec (.cellinfo cellA)
          { withSet2 with
            pend := 2, status := { withSet2.status with st := withSet2.status.st.set .cellcnt ⟨25, true⟩ } })
        (fun t => t.out.events == [.rng 25] && t.evt == 0x20 && t.pend == 2 && !t.cellSeen) = true
      ∧ nextWith (exec (.cellinfo cellA) { withSet2 with cfgRefresh := 5, cellSeen := true, cellAge := 4 })
        (fun t => t.out.events == [.rlm 4] && t.evt == 0x80 && t.cellAge == 4 && !(t.status.cell 1).valid) = true := by
  decide +kernel

/-- A15 (no marker, tag 3 cleared) and Q13 (tag 2 kept). -/
theorem test_deviceinfo :
    nextWith (exec (.feed noMark) { State.reset with pend := 3, age := 1 }) (fun t => t.pend == 0 && t.age == 0) = true
      ∧ nextWith (exec (.feed dev) { State.reset with pend := 2, age := 1 }) (fun t => t.pend == 2 && t.age == 1)
        = true := by decide +kernel

/-- A5 (CSF with computed 4E and stored 4F), A8's second chunk, A11's marker split over two chunks. -/
theorem test_feed_discards :
    nextWith (exec (.feed cellABad) withSet2)
        (fun t => t.out.events == [.csf 0x4E 0x4F] && t.evt == 0x02 && t.len == 0 && !t.cellSeen) = true
      ∧ nextWith (exec (.feed (List.replicate 22 0x11)) { State.reset with buf := List.replicate 299 0x11 })
        (fun t => t.evt == 0x02 && t.len == 0) = true
      ∧ nextWith (exec (.feed (cellA.drop 2)) { State.reset with buf := List.replicate 5 0x11 ++ [0x55, 0xAA] })
        (fun t => t.out.events == [.csf 0xA3 0x00] && t.len == 0) = true := by decide +kernel

/-- F9 and F8: unknown kind, and the version gate first. -/
theorem test_feed_gates :
    nextWith (exec (.feed unk04) State.reset) (fun t => t.out.events == [.unk 4] && t.evt == 0x10 && t.len == 0) = true
      ∧ nextWith (exec (.feed unk04) { State.reset with cfgProto := 1 })
        (fun t => t.out.events == [.ver 1] && t.evt == 0x04 && t.len == 0) = true := by decide +kernel

/-- Z2. -/
theorem test_sessionReset :
    nextWith (exec .sessionReset { held with buf := [1, 2], evt := 0x08, cellSeen := true, cellAge := 1 })
      (fun t => t.len == 0 && t.pend == 0 && t.age == 0 && t.cmdReady && t.holdT == 0 && t.wait == 0 && t.evt == 0x08
        && t.cellSeen && t.cellAge == 1) = true := by decide

/-- Z1. -/
theorem test_reset :
    nextWith (exec .reset { withSet2 with buf := [1], pend := 3, evt := 0xFF, cfgProto := 9, cfgTmo := 1, cfgRefresh := 7 })
      (fun t => t == State.reset) = true := by decide

/-- R250 on the widest register. -/
theorem test_cfgWrite :
    nextWith (exec (.cfgWrite (.refresh 0xFFFF)) State.reset) (fun t => t.cfgRefresh == 65535 && t.cfgTmo == 10) = true := by
  decide

/-- Z4. -/
theorem test_statusRead :
    nextWith (exec (.statusRead false) withSet2) (fun t => t.out.answer == some (.status withSet2.status)) = true := by
  decide

/-- A cell reads as raw/1000, the cell count unscaled (S1, R28). -/
theorem test_reader :
    (StatusModel.lookup ⟨withSet2.status.st, [⟨10000, true⟩]⟩ (.cellVoltage 1) = some 10
      ∧ withSet2.status.lookup (.setting .cellcnt) = some 2)
      ∧ State.reset.status.lookup (.setting .cellcnt) = none := by
  refine ⟨⟨?_, ?_⟩, rfl⟩
  · simp [StatusModel.lookup, StatusModel.cell, physical]; norm_num
  · simp [StatusModel.lookup, withSet2, PerSetting.get]

/-- A step takes the oldest event; a table word runs next (log 8). -/
theorem test_step :
    nextWith (step { State.reset with inbox := [.tick, .rst], cellSeen := true })
        (fun t => t.cellAge == 1 && t.inbox == [.rst]) = true
      ∧ nextWith (step (State.reset.withFetchWord 152 0x96EB9055AA))
        (fun t => t.pend == 2 && t.out.frames.length == 1) = true
      ∧ nextWith (step (State.reset.withFetchWord 40 0x0290EBAA55)) (fun t => t.cellSeen && t.len == 0) = true := by
  decide +kernel

/-- R72's order. -/
theorem test_cycle :
    cycleOrder ⟨false, true, none, some [1], true, none, some false⟩
        = [.sessionReset, .inChunk [1], .tick, .status false]
      ∧ cycleOrder ⟨true, true, none, some [1], false, none, none⟩ = [.rst] := by decide

/-! ### Witnesses: for every statement with hypotheses, concrete values that meet them -/

theorem witness_ChecksumIsByteSum :
    2 ≤ ([1, 2] : List Byte).length ∧ 2 ≤ ([2, 1] : List Byte).length
      ∧ (([2, 1] : List Byte).take 2).Perm (([1, 2] : List Byte).take 2) := by decide

theorem witness_SingleByteChangeIsDetected :
    300 ≤ cellA.length ∧ 299 < 300 ∧ (0x4F : Byte) ≠ byteAt cellA 299 ∧ (0x11 : Byte) ≠ byteAt cellA 6
      ∧ checksum cellA 299 = byteAt cellA 299 ∧ State.reset.buf = [] := by decide +kernel

theorem witness_CancellingChangesAreNotDetected :
    0 < 299 ∧ 298 < 299 ∧ 0 ≠ 298 ∧ 299 ≤ cellA.length
      ∧ (0x54 : Byte) + 0x01 = byteAt cellA 0 + byteAt cellA 298 := by decide +kernel

theorem witness_WriteRegEmitsItsFrame : State.reset.holdV = false ∧ held.holdV = true := by decide

theorem witness_CellInfoRequest :
    (State.reset.holdV = false ∧ State.reset.pend = 0)
      ∧ (({ State.reset with pend := 3, cfgTmo := 0 } : State).holdV = false
        ∧ ({ State.reset with pend := 3, cfgTmo := 0 } : State).cfgTmo = 0)
      ∧ (({ State.reset with pend := 3 } : State).holdV = false ∧ ({ State.reset with pend := 3 } : State).pend ≠ 0
        ∧ ({ State.reset with pend := 3 } : State).cfgTmo ≠ 0)
      ∧ held.holdV = true := by decide

theorem witness_DeviceInfoRequest :
    (State.reset.holdV = false ∧ State.reset.pend = 0)
      ∧ (({ State.reset with pend := 2, cfgTmo := 0 } : State).holdV = false
        ∧ ({ State.reset with pend := 2, cfgTmo := 0 } : State).cfgTmo = 0)
      ∧ (({ State.reset with pend := 2 } : State).holdV = false ∧ ({ State.reset with pend := 2 } : State).pend ≠ 0
        ∧ ({ State.reset with pend := 2 } : State).cfgTmo ≠ 0)
      ∧ held.holdV = true := by decide

theorem witness_CommandWordSelects :
    (State.reset.holdV = false ∧ held.holdV = true)
      ∧ (CmdWord.mk 0 1 2 Value.zero).op = 0 ∧ (CmdWord.mk 1 1 2 Value.zero).op = 1
      ∧ (CmdWord.mk 2 1 2 Value.zero).op = 2 ∧ (CmdWord.mk 3 1 2 Value.zero).op = 3 := by decide

theorem witness_EmittedFramesAreBuilt :
    ∃ t, exec .tick held = .next t := ⟨_, rfl⟩

theorem witness_OwnFrameIsPlainBytes :
    ({ State.reset with buf := List.replicate 279 0 } : State).buf.length + 20 < 300 := by decide +kernel

theorem witness_FeedBelowThreeHundred :
    (fedBuffer [0x11] { State.reset with buf := List.replicate 298 0 }).length < 300
      ∧ (fedBuffer [0x11] { State.reset with buf := List.replicate 321 0 }).length < 300 := by decide +kernel

theorem witness_FeedMismatchDiscards :
    300 ≤ (fedBuffer cellABad State.reset).length
      ∧ checksum (fedBuffer cellABad State.reset) 299 ≠ byteAt (fedBuffer cellABad State.reset) 299 := by decide +kernel

theorem witness_FeedMatchDispatches :
    (∀ f ∈ [set2, cellA, dev, unk04], 300 ≤ (fedBuffer f State.reset).length
        ∧ checksum (fedBuffer f State.reset) 299 = byteAt (fedBuffer f State.reset) 299)
      ∧ (State.reset.cfgProto = State.reset.params.protoImpl
        ∧ ({ State.reset with cfgProto := 0 } : State).cfgProto
          ≠ ({ State.reset with cfgProto := 0 } : State).params.protoImpl)
      ∧ byteAt (fedBuffer set2 State.reset) 4 = 1 ∧ byteAt (fedBuffer cellA State.reset) 4 = 2
      ∧ byteAt (fedBuffer dev State.reset) 4 = 3
      ∧ (byteAt (fedBuffer unk04 State.reset) 4 ≠ 1 ∧ byteAt (fedBuffer unk04 State.reset) 4 ≠ 2
        ∧ byteAt (fedBuffer unk04 State.reset) 4 ≠ 3) := by decide +kernel

theorem witness_BufferWriters : ∃ t, exec (.feed [1]) State.reset = .next t := ⟨_, rfl⟩

theorem witness_AfterFeedAtRest :
    ({ State.reset with buf := List.replicate 320 0 } : State).buf.length ≤ 320 := by decide +kernel

theorem witness_ChunkBoundariesDoNotMatter :
    State.reset.buf = [] ∧ (cellA.take 150 :: [cellA.drop 150]).flatten.length = 300
      ∧ (∀ d ∈ cellA.take 150 :: [cellA.drop 150], d ≠ [])
      ∧ (∀ d ∈ [cellA.drop 150], beginsWithMarker d = false) := by decide +kernel

theorem witness_SettingsWritesEight : 300 ≤ set2.length := by decide +kernel

theorem witness_CellinfoDecodesCells :
    300 ≤ cellA.length ∧ withSet2.status.cv.length = withSet2.params.ncellMax
      ∧ ¬ (withSet2.cfgRefresh ≠ 0 ∧ withSet2.cellSeen = true ∧ withSet2.cellAge.toNat < withSet2.cfgRefresh.toNat)
      ∧ withSet2.status.st.cellcnt.val.toNat ≤ withSet2.params.ncellMax
      ∧ 1 < withSet2.status.st.cellcnt.val.toNat ∧ withSet2.status.st.cellcnt.val.toNat ≤ 2 := by decide +kernel

/-- Both clauses: limited with CELL_AGE just below the interval, and a count one above the capacity. -/
theorem witness_CellinfoWithoutDecode :
    300 ≤ cellA.length
      ∧ (({ State.reset with cfgRefresh := 5, cellSeen := true, cellAge := 4 } : State).cfgRefresh ≠ 0
        ∧ ({ State.reset with cfgRefresh := 5, cellSeen := true, cellAge := 4 } : State).cellSeen = true
        ∧ ({ State.reset with cfgRefresh := 5, cellSeen := true, cellAge := 4 } : State).cellAge.toNat
          < ({ State.reset with cfgRefresh := 5, cellSeen := true, cellAge := 4 } : State).cfgRefresh.toNat)
      ∧ (¬ (State.reset.cfgRefresh ≠ 0 ∧ State.reset.cellSeen = true
          ∧ State.reset.cellAge.toNat < State.reset.cfgRefresh.toNat)
        ∧ State.reset.params.ncellMax < (State.reset.status.st.set .cellcnt ⟨25, true⟩).cellcnt.val.toNat) := by
  decide +kernel

theorem witness_UndecodedBytesAreIgnored :
    300 ≤ cellA.length ∧ 300 ≤ (cellA.set 5 0xA7).length
      ∧ (∀ (r : Setting) (j : Nat), j < 4 →
        byteAt cellA (withSet2.params.off.get r + j) = byteAt (cellA.set 5 0xA7) (withSet2.params.off.get r + j))
      ∧ (∀ j, 6 ≤ j → j < 6 + 2 * withSet2.status.st.cellcnt.val.toNat →
        byteAt cellA j = byteAt (cellA.set 5 0xA7) j) := by
  have h : ∀ i, i ≠ 5 → byteAt cellA i = byteAt (cellA.set 5 0xA7) i := by
    intro i hi
    simp [byteAt, Ne.symm hi]
  refine ⟨by decide +kernel, by decide +kernel, fun r j _ => h _ ?_, fun j hj _ => h _ (by omega)⟩
  have : 5 < withSet2.params.off.get r := by cases r <;> decide
  omega

theorem witness_FieldReadsStayInFrame : 23 < Params.default.ncellMax := by decide

theorem witness_TickWithoutHeldRequest :
    (State.reset.holdV = false ∧ State.reset.pend = 0)
      ∧ (({ State.reset with pend := 2, age := 8 } : State).pend ≠ 0
        ∧ min 255 (({ State.reset with pend := 2, age := 8 } : State).age.toNat + 1) < State.reset.cfgTmo.toNat)
      ∧ State.reset.cfgTmo.toNat ≤ min 255 (({ State.reset with pend := 2, age := 9 } : State).age.toNat + 1) := by
  decide

/-- One state for each of the four clauses, at the bound 10. -/
theorem witness_TickPollsHeldRequest :
    (held.holdV = true ∧ (held.holdT = 2 ∨ held.holdT = 3))
      ∧ ({ held with pend := 0 } : State).pend = 0
      ∧ (held.pend ≠ 0 ∧ held.cfgTmo.toNat ≤ min 255 (({ held with age := 9 } : State).age.toNat + 1))
      ∧ (min 255 (({ held with wait := 9 } : State).age.toNat + 1) < held.cfgTmo.toNat
        ∧ held.cfgTmo.toNat ≤ min 255 (({ held with wait := 9 } : State).wait.toNat + 1))
      ∧ (min 255 (({ held with age := 8, wait := 8 } : State).age.toNat + 1) < held.cfgTmo.toNat
        ∧ min 255 (({ held with age := 8, wait := 8 } : State).wait.toNat + 1) < held.cfgTmo.toNat) := by decide

theorem witness_TimeoutAtExactlyTheBound :
    ({ State.reset with pend := 2 } : State).pend ≠ 0 ∧ ({ State.reset with pend := 2 } : State).age = 0
      ∧ ({ State.reset with pend := 2 } : State).holdV = false ∧ 9 < max 1 State.reset.cfgTmo.toNat := by decide

theorem witness_HeldRequestLaunchesWithinBound : held.Inv ∧ held.holdV = true := ⟨held_inv, rfl⟩

/-- A pending request and a bound of 0, the invariant holding. -/
def boundZero : State := correlator 2 0 false 0 0 0

theorem boundZero_inv : boundZero.Inv :=
  correlator_inv _ _ _ _ _ _ (by decide) (by decide) (by decide) (by decide) (by decide)

theorem witness_WfoOnlyWithZeroBound :
    boundZero.Inv ∧ ∃ t, exec .reqDeviceInfo boundZero = .next t
      ∧ t.out.events = boundZero.out.events ++ [.wfo 2] ∧ Event.wfo 2 ∈ [Event.wfo 2] :=
  ⟨boundZero_inv, _, rfl, by decide, by decide⟩

theorem witness_PendTransitions :
    boundZero.Inv ∧ ∃ t, exec .tick boundZero = .next t ∧ t.pend ≠ boundZero.pend :=
  ⟨boundZero_inv, _, rfl, by decide⟩

/-- The launch rows: from Idle, and with a bound of 0 while a request is pending. -/
theorem witness_PendTransitions_launch :
    ((correlator 0 0 false 0 0 10).Inv ∧ boundZero.Inv)
      ∧ PendRow .reqCellInfo (correlator 0 0 false 0 0 10) 2
      ∧ PendRow (.cmd ⟨1, 0, 0, Value.zero⟩) (correlator 0 0 false 0 0 10) 2
      ∧ PendRow .reqDeviceInfo boundZero 3 ∧ PendRow (.cmd ⟨2, 0, 0, Value.zero⟩) boundZero 3 :=
  ⟨⟨correlator_inv _ _ _ _ _ _ (by decide) (by decide) (by decide) (by decide) (by decide), boundZero_inv⟩,
    .cellInfoRow _ ⟨rfl, .inl rfl⟩, .cellInfoCmd _ _ ⟨rfl, .inl rfl⟩ rfl, .deviceInfoRow _ ⟨rfl, .inr rfl⟩,
    .deviceInfoCmd _ _ ⟨rfl, .inr rfl⟩ rfl⟩

/-- The TICK rows, AGE just below the bound, and the two resets. -/
theorem witness_PendTransitions_tick :
    ((correlator 2 9 true 3 6 10).Inv ∧ (correlator 2 9 false 0 0 10).Inv)
      ∧ PendRow .tick (correlator 2 9 true 3 6 10) 3 ∧ PendRow .tick (correlator 2 9 false 0 0 10) 0
      ∧ PendRow .sessionReset held 0 ∧ PendRow .reset held 0 :=
  ⟨⟨correlator_inv _ _ _ _ _ _ (by decide) (by decide) (by decide) (by decide) (by decide),
      correlator_inv _ _ _ _ _ _ (by decide) (by decide) (by decide) (by decide) (by decide)⟩,
    .heldLaunch _ rfl (.inr (by decide)), .timeout _ rfl (by decide) (.inr (by decide)), .sessionReset _, .reset _⟩

/-- The frame rows: each kind by its routine and by a FEED. -/
theorem witness_PendTransitions_frame :
    ((correlator 2 9 false 0 0 10).Inv ∧ (correlator 3 9 false 0 0 10).Inv)
      ∧ PendRow (.cellinfo cellA) (correlator 2 9 false 0 0 10) 0
      ∧ PendRow (.feed cellA) (correlator 2 9 false 0 0 10) 0
      ∧ PendRow (.deviceinfo dev) (correlator 3 9 false 0 0 10) 0
      ∧ PendRow (.feed dev) (correlator 3 9 false 0 0 10) 0 := by
  have hc : AcceptsCells (correlator 2 9 false 0 0 10) := ⟨by decide, by decide⟩
  have h2 : FeedsFrame 2 cellA (correlator 2 9 false 0 0 10) := by unfold FeedsFrame; decide +kernel
  have h3 : FeedsFrame 3 dev (correlator 3 9 false 0 0 10) := by unfold FeedsFrame; decide +kernel
  exact ⟨⟨correlator_inv _ _ _ _ _ _ (by decide) (by decide) (by decide) (by decide) (by decide),
      correlator_inv _ _ _ _ _ _ (by decide) (by decide) (by decide) (by decide) (by decide)⟩,
    .cellInfoDecoded _ _ (by decide +kernel) rfl hc, .cellInfoFed _ _ h2 rfl hc, .deviceInfoDecoded _ _ rfl,
    .deviceInfoFed _ _ h3 rfl⟩

theorem witness_EventsSetStickyBits :
    (∃ t, exec .tick boundZero = .next t ∧ t.out.events ≠ boundZero.out.events) ∧ Instr.tick ≠ .reset :=
  ⟨⟨_, rfl, by decide⟩, by decide⟩

/-- The clause on two conditions in one FEED: 321 bytes buffered and a 300-byte chunk whose checksum does not match. -/
theorem witness_ConditionsPerOperation :
    (boundZero.Inv ∧ (∃ t, exec (.cfgWrite (.tmo 1)) boundZero = .next t))
      ∧ nextWith (exec (.feed cellABad) { State.reset with buf := List.replicate 321 0 })
        (fun t => t.out.events == [.ovf 321, .csf 0x4E 0x4F]) = true :=
  ⟨⟨boundZero_inv, _, rfl⟩, by decide +kernel⟩

theorem witness_StatusReadReturnsRegisters : 1 ≤ 24 ∧ 24 ≤ State.reset.params.ncellMax := by decide

theorem witness_ReaderSeesValidKeys :
    ((withSet2.status.st.get .uvp).valid = true ∧ Setting.uvp ≠ .cellcnt
      ∧ (withSet2.status.st.get .cellcnt).valid = true ∧ (State.reset.status.st.get .uvp).valid = false)
      ∧ (1 ≤ 1 ∧ (StatusModel.cell ⟨withSet2.status.st, [⟨10000, true⟩]⟩ 1).valid = true) := by decide

theorem witness_ValidBitsStaySet :
    (∃ t, exec .tick withSet2 = .next t) ∧ Instr.tick ≠ .reset ∧ (withSet2.status.st.get .uvp).valid = true
      ∧ (StatusModel.cell ⟨withSet2.status.st, [⟨10000, true⟩]⟩ 1).valid = true :=
  ⟨⟨_, rfl⟩, by decide, rfl, rfl⟩

theorem witness_StatusWriters :
    nextWith (exec (.settings set2) State.reset) (fun t => decide (t.status.st ≠ State.reset.status.st)) = true
      ∧ nextWith (exec (.cellinfo cellA) withSet2) (fun t => decide (t.status.cv ≠ withSet2.status.cv)) = true := by
  decide +kernel

theorem witness_ConfigurationWriters : ∃ t, exec (.cfgWrite (.tmo 3)) State.reset = .next t := ⟨_, rfl⟩

theorem witness_OutsideItsDomainARowFaults :
    (cellA.take 299).length < 300 ∧ ([0xFF] : List Byte).length < 2 := by decide +kernel

theorem witness_StepRunsTheOldestEvent :
    ({ State.reset with inbox := [.tick, .rst] } : State).inbox = PortEvent.tick :: [.rst] ∧ State.reset.inbox = [] :=
  ⟨rfl, rfl⟩

theorem witness_ArrangedInstructionRunsNext :
    (Instr.settings set2).wellFormed = true ∧ (Instr.cellinfo cellA).wellFormed = true
      ∧ (Instr.deviceinfo dev).wellFormed = true ∧ Instr.reqCellInfo.wellFormed = true ∧ Instr.tick.wellFormed = true
      ∧ (Instr.checksum [1] 1).wellFormed = true := by decide +kernel

/-- Both clauses: a partial cycle without RESET, and one with RESET. -/
theorem witness_CycleOrderIsFixed :
    (Cycle.mk false true none (some [1]) false none none).rst = false
      ∧ (Cycle.mk true true none (some [1]) false none none).rst = true := by decide

theorem witness_StepKeepsInvariant :
    ∃ s t : State, s.Inv ∧ step s = .next t ∧ t ≠ s := by
  refine ⟨{ held with inbox := [.tick] }, _, ?_, rfl, by decide⟩
  exact ⟨held_inv.1, held_inv.2, held_inv.3, held_inv.4, held_inv.5, held_inv.6, held_inv.7, held_inv.8, held_inv.9⟩

theorem witness_DecodeOfEncode :
    (Instr.cellinfo cellA).wellFormed = true ∧ (Instr.writeReg 0xFF 0xFF ⟨1, 2, 3, 4⟩).wellFormed = true := by
  decide +kernel

/-- Both alternatives: a WRITE_REG with bytes of its own, and one with the bytes of a request. -/
theorem witness_OutboundFrameDecodes :
    encodeFrameOut Params.default (.writeReg 0x1D 4 ⟨1, 0, 0, 0⟩)
        = some [0xAA, 0x55, 0x90, 0xEB, 0x1D, 4, 1, 0, 0, 0, 0, 0, 0, 0, 0, 0, 0, 0, 0, 0x9C]
      ∧ encodeFrameOut Params.default (.writeReg 0x96 0 ⟨0, 0, 0, 0⟩)
        = some [0xAA, 0x55, 0x90, 0xEB, 0x96, 0, 0, 0, 0, 0, 0, 0, 0, 0, 0, 0, 0, 0, 0, 0x10] := by decide

theorem witness_SpecWordsDecode :
    (List.replicate 295 (0 : Byte)).length = 295 ∧ (4 : Byte) ≠ 1 ∧ (4 : Byte) ≠ 2 ∧ (4 : Byte) ≠ 3 := by
  decide +kernel

end Sys2Proof.Tests
end

/-! PROOFS. Scope: what the next step runs after `arrange` (log 8), and where the internal rows stop (log 6). -/

namespace Sys2Proof.Machine

/-! ### One step -/

/-- An event placed before the waiting ones is what the next step runs, and no output is presented yet (R70, log 1). -/
theorem step_inbox_cons (e : PortEvent) (s : State) :
    step { s with inbox := e :: s.inbox } = exec (decodePort e) { s with out := ⟨[], [], none⟩ } := rfl

/-! ### Inbound frames -/

/-- What a well-formed inbound frame of kind `k` satisfies (R134, R135, R152). -/
theorem frameOk_iff (k : FrameKind) (f : List Byte) :
    frameOk k f = true ↔ 300 ≤ f.length ∧ byteAt f 4 = k.byte ∧ checksum f 299 = byteAt f 299 := by
  rw [frameOk, Bool.and_eq_true, Bool.and_eq_true, decide_eq_true_eq, beq_iff_eq, beq_iff_eq, and_assoc]
  rfl

/-- A complete valid frame fed to the empty buffer is dispatched whole, and then the buffer is cleared (R135). -/
theorem feedChunk_valid_frame {f : List Byte} {s : State} (hbuf : s.buf = []) (hlen : 300 ≤ f.length)
    (hck : checksum f 299 = byteAt f 299) :
    feedChunk f s = clearBuf (dispatch f { markFeed s with buf := f }) := by
  have hfed : fedBuffer f s = f := by simp [fedBuffer, hbuf]
  have hst : fedState s = markFeed s := by simp [fedState, markFeed, hbuf]
  rw [feedChunk_eq, hfed, hst]
  obtain ⟨hshort, -⟩ | ⟨-, -, e⟩ | ⟨-, hbad, -⟩ := feedEvaluate_cases { markFeed s with buf := f }
  · exact absurd hshort (Nat.not_lt.mpr hlen)
  · exact e
  · exact absurd hck hbad

/-- The row of an inbound frame kind, with its operand (R93). -/
def frameInstr (k : FrameKind) (f : List Byte) : Instr :=
  match k with
  | .settings => .settings f
  | .cellinfo => .cellinfo f
  | .deviceinfo => .deviceinfo f

/-- Kind selection inverts the kind byte (R93, R152). -/
theorem decodeKind_byte (k : FrameKind) : decodeKind k.byte = .ok k := by
  cases k <;> rfl

/-- With decoding on, DISPATCH is the routine of the frame's kind (R151, R152). -/
theorem exec_frameInstr {k : FrameKind} {f : List Byte} {s : State} (hlen : 300 ≤ f.length)
    (hkind : byteAt f 4 = k.byte) (hproto : s.cfgProto = s.params.protoImpl) :
    exec (frameInstr k f) s = .next (dispatch f s) := by
  have hlong : ¬ f.length < Config.minFrame := Nat.not_lt.mpr hlen
  rw [dispatch, if_neg (not_not.mpr hproto), Config.kindOff, hkind, decodeKind_byte]
  cases k with
  | settings => exact if_neg hlong
  | cellinfo => exact if_neg hlong
  | deviceinfo => rfl

/-- `arrange` places a frame of any kind as one chunk before the empty buffer, with decoding on (log 8). -/
theorem arrange_frameInstr (k : FrameKind) (f : List Byte) (s : State) :
    arrange (frameInstr k f) s
      = { s with buf := [], cfgProto := s.params.protoImpl, inbox := .inChunk f :: s.inbox } := by
  cases k <;> rfl

/-- The next step after a well-formed frame is arranged runs its kind's routine, then clears the buffer (R135). -/
theorem step_arrange_frameInstr {k : FrameKind} {f : List Byte} (s : State) (hok : frameOk k f = true) :
    ∃ t, step (arrange (frameInstr k f) s) = .next { t with buf := [] }
      ∧ exec (frameInstr k f) { s with
          buf := f, cfgProto := s.params.protoImpl, statusBefore := s.status, out := ⟨[], [], none⟩ } = .next t := by
  obtain ⟨hlen, hkind, hck⟩ := (frameOk_iff k f).mp hok
  refine ⟨_, ?_, exec_frameInstr hlen hkind rfl⟩
  rw [arrange_frameInstr]
  exact (step_inbox_cons (.inChunk f) { s with buf := [], cfgProto := s.params.protoImpl }).trans
    (congrArg Host.Outcome.next (feedChunk_valid_frame rfl hlen hck))

/-! ### Command words -/

/-- A command word at the port runs CMD on its fields, none of which the encoding loses (R101, R108). -/
theorem step_inbox_cons_cmd (c : CmdWord) (s : State) :
    step { s with inbox := .cmd (encodeCmdWord c) :: s.inbox } = exec (.cmd c) { s with out := ⟨[], [], none⟩ } := by
  rw [step_inbox_cons, decodePort, decodeCmdWord_encodeCmdWord]

/-- CMD with `cmd_op` 0 is WRITE_REG (R201). -/
theorem exec_cmd_writeReg (a l : Byte) (v : Value) (s : State) :
    exec (.cmd ⟨0, a, l, v⟩) s = exec (.writeReg a l v) s := rfl

/-- CMD with `cmd_op` 1 is REQ_CELL_INFO, whatever the other fields (R201). -/
theorem exec_cmd_reqCellInfo (a l : Byte) (v : Value) (s : State) :
    exec (.cmd ⟨1, a, l, v⟩) s = exec .reqCellInfo s := rfl

/-- CMD with `cmd_op` 2 is REQ_DEVICE_INFO, whatever the other fields (R201). -/
theorem exec_cmd_reqDeviceInfo (a l : Byte) (v : Value) (s : State) :
    exec (.cmd ⟨2, a, l, v⟩) s = exec .reqDeviceInfo s := rfl

/-! ### The statements -/

/-- Settles O44: a frame row by `step_arrange_frameInstr`, an outbound form or CMD by its command word, the other
operations by the event at their port. -/
theorem arrangedInstructionRunsNext : Obligations.ArrangedInstructionRunsNext := by
  unfold Obligations.ArrangedInstructionRunsNext
  intro i s hwf
  cases i with
  | settings f => exact step_arrange_frameInstr (k := .settings) s hwf
  | cellinfo f => exact step_arrange_frameInstr (k := .cellinfo) s hwf
  | deviceinfo f => exact step_arrange_frameInstr (k := .deviceinfo) s hwf
  | writeReg a l v => exact (step_inbox_cons_cmd ⟨0, a, l, v⟩ (clearHold s)).trans (exec_cmd_writeReg a l v _)
  | reqCellInfo =>
    exact (step_inbox_cons_cmd ⟨1, 0, 0, Value.zero⟩ (clearHold s)).trans
      (exec_cmd_reqCellInfo 0 0 Value.zero _)
  | reqDeviceInfo =>
    exact (step_inbox_cons_cmd ⟨2, 0, 0, Value.zero⟩ (clearHold s)).trans
      (exec_cmd_reqDeviceInfo 0 0 Value.zero _)
  | cmd w => exact step_inbox_cons_cmd w (clearHold s)
  | feed c => exact step_inbox_cons (.inChunk c) s
  | tick => exact step_inbox_cons .tick s
  | sessionReset => exact step_inbox_cons .sessionReset s
  | reset => exact step_inbox_cons .rst s
  | statusRead o => exact step_inbox_cons (.status o) s
  | cfgWrite c => exact step_inbox_cons (.cfg c) s
  | checksum b n => rfl
  | build a l v => rfl

/-- Settles O42: each of the three rows tests its domain first (log 6). -/
theorem outsideItsDomainARowFaults : Obligations.OutsideItsDomainARowFaults := by
  unfold Obligations.OutsideItsDomainARowFaults
  constructor
  · intro f s hshort
    exact ⟨if_pos hshort, if_pos hshort⟩
  · intro v n s hrange
    exact if_pos hrange

end Sys2Proof.Machine

/-! PROOFS. The state: who writes the buffer, the status registers and the configuration, what FEED leaves alone, and
the invariant at rest. -/

namespace Sys2Proof.Machine

/-! ### What an operation keeps -/

/-- The configuration and the parameters are as they were. -/
structure KeepsConfig (s t : State) : Prop where
  params : t.params = s.params
  cfgProto : t.cfgProto = s.cfgProto
  cfgRefresh : t.cfgRefresh = s.cfgRefresh
  cfgTmo : t.cfgTmo = s.cfgTmo

/-- The configuration, the buffer and the status registers are as they were: all that can differ is the correlator,
the age of the cell file, EVT, what was presented and the model's own fields. -/
structure KeepsDecodePath (s t : State) : Prop extends KeepsConfig s t where
  buf : t.buf = s.buf
  status : t.status = s.status

theorem KeepsDecodePath.refl (s : State) : KeepsDecodePath s s := ⟨⟨rfl, rfl, rfl, rfl⟩, rfl, rfl⟩

theorem KeepsDecodePath.trans {s t u : State} (hst : KeepsDecodePath s t) (htu : KeepsDecodePath t u) :
    KeepsDecodePath s u where
  params := htu.params.trans hst.params
  cfgProto := htu.cfgProto.trans hst.cfgProto
  cfgRefresh := htu.cfgRefresh.trans hst.cfgRefresh
  cfgTmo := htu.cfgTmo.trans hst.cfgTmo
  buf := htu.buf.trans hst.buf
  status := htu.status.trans hst.status

theorem keepsDecodePath_launch (g : Tag) (s : State) : KeepsDecodePath s (launch g s) := by
  rw [launch_frame]
  exact ⟨⟨rfl, rfl, rfl, rfl⟩, rfl, rfl⟩

theorem keepsDecodePath_request (g : Tag) (s : State) : KeepsDecodePath s (request g s) := by
  obtain ⟨-, e⟩ | ⟨-, -, e⟩ := request_cases g s <;> rw [e]
  · exact keepsDecodePath_launch g s
  · exact ⟨⟨rfl, rfl, rfl, rfl⟩, rfl, rfl⟩

theorem keepsDecodePath_writeRegister (a l : Byte) (v : Value) (s : State) :
    KeepsDecodePath s (writeRegister a l v s) := ⟨⟨rfl, rfl, rfl, rfl⟩, rfl, rfl⟩

/-- A command that is not accepted changes nothing at all (R41). -/
theorem keepsDecodePath_accept {act : State → State} {s : State} (h : KeepsDecodePath s (act s)) :
    KeepsDecodePath s (accept act s) := by
  rw [accept_eq]
  split
  · exact h
  · exact .refl s

theorem keepsDecodePath_command (w : CmdWord) (s : State) : KeepsDecodePath s (command w s) := by
  unfold command
  split_ifs
  · exact keepsDecodePath_writeRegister _ _ _ s
  · exact keepsDecodePath_request 2 s
  · exact keepsDecodePath_request 3 s
  · exact .refl s

theorem keepsDecodePath_tickTimeout (s : State) : KeepsDecodePath s (tickTimeout s) := by
  obtain ⟨-, e⟩ | ⟨-, -, e⟩ | ⟨-, -, e⟩ := tickTimeout_cases s <;> rw [e] <;>
    exact ⟨⟨rfl, rfl, rfl, rfl⟩, rfl, rfl⟩

theorem keepsDecodePath_tickPoll (s : State) : KeepsDecodePath s (tickPoll s) := by
  have hwait : KeepsDecodePath s (incWait s) := ⟨⟨rfl, rfl, rfl, rfl⟩, rfl, rfl⟩
  obtain ⟨-, e⟩ | ⟨-, -, e⟩ | ⟨-, -, -, e⟩ := tickPoll_cases s <;> rw [e]
  · exact .refl s
  · exact hwait.trans (keepsDecodePath_launch _ _)
  · exact hwait

theorem keepsDecodePath_tickUnit (s : State) : KeepsDecodePath s (tickUnit s) := by
  have hage : KeepsDecodePath s (tickCellAge s) := by
    rw [tickCellAge_eq]
    exact ⟨⟨rfl, rfl, rfl, rfl⟩, rfl, rfl⟩
  exact (hage.trans (keepsDecodePath_tickTimeout _)).trans (keepsDecodePath_tickPoll _)

theorem keepsDecodePath_readStatus (overlap : Bool) (s : State) : KeepsDecodePath s (readStatus overlap s) := by
  cases overlap <;> exact ⟨⟨rfl, rfl, rfl, rfl⟩, rfl, rfl⟩

theorem keepsDecodePath_answer (a : Answer) (s : State) : KeepsDecodePath s (answer a s) :=
  ⟨⟨rfl, rfl, rfl, rfl⟩, rfl, rfl⟩

/-- A row that tests its domain first goes on only past the test (log 6). -/
theorem next_of_guard {c : Prop} [Decidable c] {r : Fault} {s t : State}
    (h : (if c then Host.Outcome.fault r else .next s : Host.Outcome State Fault Refusal) = .next t) : t = s := by
  split at h <;> cases h
  rfl

/-- An instruction that goes on is one of the three frame routines, FEED, one of the two resets or CFG_WRITE, or it
keeps the decode path. -/
theorem exec_cases {i : Instr} {s t : State} (h : exec i s = .next t) :
    (∃ f, i = .settings f ∧ t = decodeSettings f s)
    ∨ (∃ f, i = .cellinfo f ∧ t = decodeCellinfo f s)
    ∨ (∃ f, i = .deviceinfo f ∧ t = decodeDeviceinfo s)
    ∨ (∃ c, i = .feed c ∧ t = feedChunk c s)
    ∨ (i = .sessionReset ∧ t = resetSession s)
    ∨ (i = .reset ∧ t = resetEngine s)
    ∨ (∃ c, i = .cfgWrite c ∧ t = writeCfg c s)
    ∨ KeepsDecodePath s t := by
  cases i with
  | settings f => exact .inl ⟨f, rfl, next_of_guard h⟩
  | cellinfo f => exact .inr (.inl ⟨f, rfl, next_of_guard h⟩)
  | checksum b n =>
    rw [next_of_guard h]
    simp [keepsDecodePath_answer]
  | deviceinfo f => cases h; simp
  | feed c => cases h; simp
  | sessionReset => cases h; simp
  | reset => cases h; simp
  | cfgWrite c => cases h; simp
  | writeReg a l v => cases h; simp [keepsDecodePath_accept, keepsDecodePath_writeRegister]
  | reqCellInfo => cases h; simp [keepsDecodePath_accept, keepsDecodePath_request]
  | reqDeviceInfo => cases h; simp [keepsDecodePath_accept, keepsDecodePath_request]
  | cmd w => cases h; simp [keepsDecodePath_accept, keepsDecodePath_command]
  | tick => cases h; simp [keepsDecodePath_tickUnit]
  | statusRead o => cases h; simp [keepsDecodePath_readStatus]
  | build a l v => cases h; simp [keepsDecodePath_answer]

/-! ### CELLINFO and FEED -/

/-- CELLINFO never writes BUF, ST, the hold registers, the configuration or `out_frame` (R155 to R157, R162). -/
theorem decodeCellinfo_frame (f : List Byte) (s : State) :
    decodeCellinfo f s = { s with
      status := { s.status with cv := (decodeCellinfo f s).status.cv }
      pend := (decodeCellinfo f s).pend, age := (decodeCellinfo f s).age
      cellSeen := (decodeCellinfo f s).cellSeen, cellAge := (decodeCellinfo f s).cellAge
      evt := (decodeCellinfo f s).evt
      out := { s.out with events := (decodeCellinfo f s).out.events } } := by
  obtain ⟨-, e⟩ | ⟨-, -, e⟩ | ⟨-, -, e⟩ := decodeCellinfo_cases f s <;> rw [e]
  · rfl
  · rfl
  · rw [matchTag_eq, decodeCells_eq]
    rfl

/-- FEED has three outcomes, told from the buffer it evaluates (R134 to R136). -/
theorem feedChunk_cases (c : List Byte) (s : State) :
    ((fedBuffer c s).length < 300 ∧ feedChunk c s = { fedState s with buf := fedBuffer c s })
    ∨ (300 ≤ (fedBuffer c s).length ∧ checksum (fedBuffer c s) 299 = byteAt (fedBuffer c s) 299
        ∧ feedChunk c s = clearBuf (dispatch (fedBuffer c s) { fedState s with buf := fedBuffer c s }))
    ∨ (300 ≤ (fedBuffer c s).length ∧ checksum (fedBuffer c s) 299 ≠ byteAt (fedBuffer c s) 299
        ∧ feedChunk c s
          = raise (.csf (checksum (fedBuffer c s) 299) (byteAt (fedBuffer c s) 299)) (clearBuf (fedState s))) := by
  rw [feedChunk_eq]
  exact feedEvaluate_cases { fedState s with buf := fedBuffer c s }

/-- The evaluated buffer is the chunk alone, or the chunk after what was buffered (R131 to R133). -/
theorem fedBuffer_cases (c : List Byte) (s : State) : fedBuffer c s = c ∨ fedBuffer c s = s.buf ++ c := by
  unfold fedBuffer
  split
  · exact .inl rfl
  · exact .inr rfl

/-- What FEED can write (R42, R162, R184). -/
theorem feedChunk_frame (c : List Byte) (s : State) :
    feedChunk c s = { s with
      buf := (feedChunk c s).buf, status := (feedChunk c s).status, pend := (feedChunk c s).pend
      age := (feedChunk c s).age, cellSeen := (feedChunk c s).cellSeen, cellAge := (feedChunk c s).cellAge
      evt := (feedChunk c s).evt, statusBefore := s.status
      out := { s.out with events := (feedChunk c s).out.events } } := by
  obtain ⟨-, e⟩ | ⟨-, -, e⟩ | ⟨-, -, e⟩ := feedChunk_cases c s <;> rw [e]
  · rfl
  · rw [dispatch_frame]
    rfl
  · rfl

/-- FEED sets LEN to 0, to LEN + n or to n (R21). -/
theorem feedChunk_len (c : List Byte) (s : State) :
    (feedChunk c s).len = 0 ∨ (feedChunk c s).len = s.len + c.length ∨ (feedChunk c s).len = c.length := by
  obtain ⟨-, e⟩ | ⟨-, -, e⟩ | ⟨-, -, e⟩ := feedChunk_cases c s <;> rw [e]
  · obtain hb | hb := fedBuffer_cases c s
    · exact .inr (.inr (congrArg List.length hb))
    · exact .inr (.inl ((congrArg List.length hb).trans List.length_append))
  · exact .inl rfl
  · exact .inl rfl

/-- Every instruction but RESET and CFG_WRITE keeps the configuration (R34). -/
theorem exec_config {i : Instr} {s t : State} (h : exec i s = .next t) :
    (i = .reset ∧ t = resetEngine s) ∨ (∃ c, i = .cfgWrite c ∧ t = writeCfg c s) ∨ KeepsConfig s t := by
  obtain ⟨f, -, e⟩ | ⟨f, -, e⟩ | ⟨f, -, e⟩ | ⟨c, -, e⟩ | ⟨-, e⟩ | hreset | hcfg | hkeeps := exec_cases h
  · exact .inr (.inr (by rw [e]; exact ⟨rfl, rfl, rfl, rfl⟩))
  · exact .inr (.inr (by rw [e, decodeCellinfo_frame]; exact ⟨rfl, rfl, rfl, rfl⟩))
  · exact .inr (.inr (by rw [e, decodeDeviceinfo, matchTag_eq]; exact ⟨rfl, rfl, rfl, rfl⟩))
  · exact .inr (.inr (by rw [e, feedChunk_frame]; exact ⟨rfl, rfl, rfl, rfl⟩))
  · exact .inr (.inr (by rw [e]; exact ⟨rfl, rfl, rfl, rfl⟩))
  · exact .inl hreset
  · exact .inr (.inl hcfg)
  · exact .inr (.inr hkeeps.toKeepsConfig)

/-! ### The tag -/

/-- The tag-clear rule leaves the tag and its age, or clears both, which it does for its own tag only (R160). -/
theorem matchTag_tag (g : Tag) (s : State) :
    ((matchTag g s).pend = s.pend ∧ (matchTag g s).age = s.age)
    ∨ (s.pend = g ∧ (matchTag g s).pend = 0 ∧ (matchTag g s).age = 0) := by
  obtain ⟨hg, e⟩ | ⟨-, e⟩ := matchTag_cases g s <;> rw [e]
  · exact .inr ⟨hg, rfl, rfl⟩
  · exact .inl ⟨rfl, rfl⟩

/-- The cell loop leaves the correlator alone (R156). -/
theorem decodeCells_tag (f : List Byte) (n : Nat) (s : State) :
    (decodeCells f n s).pend = s.pend ∧ (decodeCells f n s).age = s.age := by
  rw [decodeCells_eq]
  exact ⟨rfl, rfl⟩

theorem decodeCellinfo_tag (f : List Byte) (s : State) :
    ((decodeCellinfo f s).pend = s.pend ∧ (decodeCellinfo f s).age = s.age)
    ∨ (s.pend = 2 ∧ (decodeCellinfo f s).pend = 0 ∧ (decodeCellinfo f s).age = 0) := by
  obtain ⟨-, e⟩ | ⟨-, -, e⟩ | ⟨-, -, e⟩ := decodeCellinfo_cases f s <;> rw [e]
  · exact .inl ⟨rfl, rfl⟩
  · exact .inl ⟨rfl, rfl⟩
  · obtain ⟨hpend, hage⟩ := decodeCells_tag f s.status.st.cellcnt.val.toNat (acceptCells s)
    have htag := matchTag_tag 2 (decodeCells f s.status.st.cellcnt.val.toNat (acceptCells s))
    rwa [hpend, hage] at htag

/-- DISPATCH clears the tag only with decoding on and when the frame's kind byte is the tag (R151, R160). -/
theorem dispatch_tag (f : List Byte) (s : State) :
    ((dispatch f s).pend = s.pend ∧ (dispatch f s).age = s.age)
    ∨ ((dispatch f s).pend = 0 ∧ (dispatch f s).age = 0 ∧ (s.pend = 2 ∨ s.pend = 3)
        ∧ byteAt f 4 = s.pend.setWidth 8 ∧ s.cfgProto = s.params.protoImpl) := by
  obtain ⟨-, e⟩ | ⟨-, -, e⟩ | ⟨hproto, hkind, e⟩ | ⟨hproto, hkind, e⟩ | ⟨-, -, -, -, e⟩ := dispatch_cases f s <;>
    rw [e]
  · exact .inl ⟨rfl, rfl⟩
  · exact .inl ⟨rfl, rfl⟩
  · obtain hkept | ⟨hpend, hp, ha⟩ := decodeCellinfo_tag f s
    · exact .inl hkept
    · exact .inr ⟨hp, ha, .inl hpend, by rw [hkind, hpend]; rfl, hproto⟩
  · obtain hkept | ⟨hpend, hp, ha⟩ := matchTag_tag 3 s
    · exact .inl hkept
    · exact .inr ⟨hp, ha, .inr hpend, by rw [hkind, hpend]; rfl, hproto⟩
  · exact .inl ⟨rfl, rfl⟩

theorem feedChunk_tag (c : List Byte) (s : State) :
    ((feedChunk c s).pend = s.pend ∧ (feedChunk c s).age = s.age)
    ∨ ((feedChunk c s).pend = 0 ∧ (feedChunk c s).age = 0 ∧ (s.pend = 2 ∨ s.pend = 3)
        ∧ byteAt (fedBuffer c s) 4 = s.pend.setWidth 8 ∧ s.cfgProto = s.params.protoImpl
        ∧ checksum (fedBuffer c s) 299 = byteAt (fedBuffer c s) 299) := by
  obtain ⟨-, e⟩ | ⟨-, hck, e⟩ | ⟨-, -, e⟩ := feedChunk_cases c s <;> rw [e]
  · exact .inl ⟨rfl, rfl⟩
  · obtain hkept | ⟨hp, ha, hpend, hkind, hproto⟩ :=
      dispatch_tag (fedBuffer c s) { fedState s with buf := fedBuffer c s }
    · exact .inl hkept
    · exact .inr ⟨hp, ha, hpend, hkind, hproto, hck⟩
  · exact .inl ⟨rfl, rfl⟩

/-! ### The status registers -/

/-- What the cell loop makes of the status registers depends on no other register (R156). -/
theorem decodeCells_status_congr (f : List Byte) (n : Nat) {s t : State} (h : s.status = t.status) :
    (decodeCells f n s).status = (decodeCells f n t).status := by
  induction n with
  | zero => exact h
  | succ n ih => simp only [decodeCells, writeCv_status, ih]

/-- The cell loop writes no settings register (R156). -/
theorem decodeCells_st (f : List Byte) (n : Nat) (s : State) : (decodeCells f n s).status.st = s.status.st := by
  rw [decodeCells_eq]

/-- The tag-clear rule writes no status register (R160). -/
@[simp] theorem matchTag_status (g : Tag) (s : State) : (matchTag g s).status = s.status := by
  rw [matchTag_eq]

theorem decodeCellinfo_status (f : List Byte) (s : State) :
    (decodeCellinfo f s).status = s.status
    ∨ ∃ n, (decodeCellinfo f s).status = (decodeCells f n s).status := by
  obtain ⟨-, e⟩ | ⟨-, -, e⟩ | ⟨-, -, e⟩ := decodeCellinfo_cases f s <;> rw [e]
  · exact .inl rfl
  · exact .inl rfl
  · exact .inr ⟨_, (matchTag_status 2 _).trans (decodeCells_status_congr f _ (acceptCells_status s))⟩

/-- DISPATCH leaves the status registers, or writes the settings of a frame of kind 1, or cells of one of kind 2
(R152 to R156). -/
theorem dispatch_status (f : List Byte) (s : State) :
    (dispatch f s).status = s.status
    ∨ (byteAt f 4 = 1 ∧ (dispatch f s).status = (decodeSettings f s).status)
    ∨ (byteAt f 4 = 2 ∧ ∃ n, (dispatch f s).status = (decodeCells f n s).status) := by
  obtain ⟨-, e⟩ | ⟨-, hkind, e⟩ | ⟨-, hkind, e⟩ | ⟨-, -, e⟩ | ⟨-, -, -, -, e⟩ := dispatch_cases f s <;> rw [e]
  · exact .inl rfl
  · exact .inr (.inl ⟨hkind, rfl⟩)
  · exact (decodeCellinfo_status f s).imp_right fun hcells => .inr ⟨hkind, hcells⟩
  · exact .inl (matchTag_status 3 s)
  · exact .inl rfl

theorem feedChunk_status (c : List Byte) (s : State) :
    (feedChunk c s).status = s.status
    ∨ (byteAt (fedBuffer c s) 4 = 1 ∧ (feedChunk c s).status = (decodeSettings (fedBuffer c s) s).status)
    ∨ (byteAt (fedBuffer c s) 4 = 2 ∧ ∃ n, (feedChunk c s).status = (decodeCells (fedBuffer c s) n s).status) := by
  obtain ⟨-, e⟩ | ⟨-, -, e⟩ | ⟨-, -, e⟩ := feedChunk_cases c s <;> rw [e]
  · exact .inl rfl
  · obtain hkept | hset | ⟨hkind, n, hcells⟩ :=
      dispatch_status (fedBuffer c s) { fedState s with buf := fedBuffer c s }
    · exact .inl hkept
    · exact .inr (.inl hset)
    · exact .inr (.inr ⟨hkind, n, hcells.trans (decodeCells_status_congr _ n rfl)⟩)
  · exact .inl rfl

/-- Every instruction but RESET leaves the status registers, or writes the eight settings, which is SETTINGS or the
FEED of a frame of kind 1, or writes cells, which is CELLINFO or the FEED of a frame of kind 2 (R22, R23, R42). -/
theorem exec_status {i : Instr} {s t : State} (h : exec i s = .next t) (hi : i ≠ .reset) :
    t.status = s.status
    ∨ (((∃ f, i = .settings f) ∨ ∃ c, i = .feed c ∧ byteAt (fedBuffer c s) 4 = 1)
        ∧ ∃ f, t.status = (decodeSettings f s).status)
    ∨ (((∃ f, i = .cellinfo f) ∨ ∃ c, i = .feed c ∧ byteAt (fedBuffer c s) 4 = 2)
        ∧ ∃ f n, t.status = (decodeCells f n s).status) := by
  obtain ⟨f, hf, e⟩ | ⟨f, hf, e⟩ | ⟨f, -, e⟩ | ⟨c, hc, e⟩ | ⟨-, e⟩ | ⟨hr, -⟩ | ⟨c, -, e⟩ | hkeeps := exec_cases h
  · exact .inr (.inl ⟨.inl ⟨f, hf⟩, f, by rw [e]⟩)
  · rw [e]
    exact (decodeCellinfo_status f s).imp_right fun ⟨n, hn⟩ => .inr ⟨.inl ⟨f, hf⟩, f, n, hn⟩
  · rw [e]
    exact .inl (matchTag_status 3 s)
  · rw [e]
    obtain hkept | ⟨hkind, hset⟩ | ⟨hkind, n, hcells⟩ := feedChunk_status c s
    · exact .inl hkept
    · exact .inr (.inl ⟨.inr ⟨c, hc, hkind⟩, _, hset⟩)
    · exact .inr (.inr ⟨.inr ⟨c, hc, hkind⟩, _, n, hcells⟩)
  · rw [e]
    exact .inl rfl
  · exact absurd hr hi
  · rw [e]
    cases c <;> exact .inl rfl
  · exact .inl hkeeps.status

/-- After SETTINGS every settings register is valid (R153). -/
theorem decodeSettings_valid (f : List Byte) (s : State) (r : Setting) :
    ((decodeSettings f s).status.st.get r).valid = true := by
  rw [decodeSettings_eq]
  cases r <;> rfl

/-- The cell loop invalidates no cell register (R156). -/
theorem decodeCells_valid (f : List Byte) (n k : Nat) (s : State) (h : (s.status.cell k).valid = true) :
    ((decodeCells f n s).status.cell k).valid = true := by
  unfold StatusModel.cell at *
  rw [List.getD_eq_getElem?_getD, decodeCells_getElem?] at *
  split
  · rfl
  · exact h

/-! ### The invariant at rest -/

/-- The cleared status registers of RESET meet their invariant (R50). -/
theorem statusInv_cleared (p : Params) : (StatusModel.cleared p).Inv p where
  capacity := List.length_replicate
  invalidSetting r _ := by cases r <;> rfl
  invalidCell c hc _ := by rw [List.eq_of_mem_replicate hc]

/-- A settings register is written together with its valid bit (R10, R29). -/
theorem StatusModel.Inv.setSetting {p : Params} {m : StatusModel} (h : m.Inv p) (r : Setting) (v : W32) :
    StatusModel.Inv p { m with st := m.st.set r ⟨v, true⟩ } where
  capacity := h.capacity
  invalidSetting q hq := by
    by_cases hr : q = r
    · simp [hr] at hq
    · rw [PerSetting.get_set_of_ne _ _ _ _ hr] at *
      exact h.invalidSetting q hq
  invalidCell := h.invalidCell

/-- A cell register is written together with its valid bit (R10, R29). -/
theorem StatusModel.Inv.setCell {p : Params} {m : StatusModel} (h : m.Inv p) (i : Nat) (v : W16) :
    StatusModel.Inv p { m with cv := m.cv.set i ⟨v, true⟩ } where
  capacity := List.length_set.trans h.capacity
  invalidSetting := h.invalidSetting
  invalidCell c hc hv := by
    obtain hold | rfl := List.mem_or_eq_of_mem_set hc
    · exact h.invalidCell c hold hv
    · simp at hv

namespace State.Inv

variable {s : State}

/-! #### The shared operations -/

theorem beginOp (h : s.Inv) (rest : List PortEvent) : (beginOp rest s).Inv := { h with }

theorem raise (h : s.Inv) (e : Event) : (raise e s).Inv := { h with }

theorem emit (h : s.Inv) (f : List Byte) : (emit f s).Inv := { h with }

theorem clearBuf (h : s.Inv) : (clearBuf s).Inv := { h with len := Nat.zero_le _ }

/-- Clearing the tag clears its age (R160, R206). -/
theorem setTag_zero (h : s.Inv) : (setTag 0 s).Inv :=
  { h with
    pendLegal := show (0 : Tag) ≠ 1 by decide
    ageIdle := fun _ => rfl
    waitLeAge := fun hp => absurd rfl hp }

/-- Nothing held (R203, R261). -/
theorem clearHold (h : s.Inv) : (clearHold s).Inv :=
  { h with
    holdTag := nofun
    holdClear := fun _ => ⟨rfl, rfl⟩
    waitLeAge := nofun }

/-- A held request starts with WAIT 0 (R202). -/
theorem holdRequest (h : s.Inv) {g : Tag} (hg : g = 2 ∨ g = 3) : (holdRequest g s).Inv :=
  { h with
    holdTag := fun _ => hg
    holdClear := nofun
    waitLeAge := fun _ _ => Nat.zero_le _ }

theorem acceptCells (h : s.Inv) : (acceptCells s).Inv := { h with unseenAge := nofun }

theorem writeSt (h : s.Inv) (r : Setting) (v : W32) : (writeSt r v s).Inv :=
  { h with status := h.status.setSetting r v }

theorem writeCv (h : s.Inv) (k : Nat) (v : W16) : (writeCv k v s).Inv :=
  { h with status := h.status.setCell (k - 1) v }

theorem matchTag (h : s.Inv) (g : Tag) : (matchTag g s).Inv := by
  obtain ⟨-, e⟩ | ⟨-, e⟩ := matchTag_cases g s <;> rw [e]
  · exact h.setTag_zero
  · exact h

/-! #### The frame routines -/

theorem decodeSettings (h : s.Inv) (f : List Byte) : (decodeSettings f s).Inv :=
  (((((((h.writeSt _ _).writeSt _ _).writeSt _ _).writeSt _ _).writeSt _ _).writeSt _ _).writeSt _ _).writeSt _ _

theorem decodeCells (h : s.Inv) (f : List Byte) (n : Nat) : (decodeCells f n s).Inv := by
  induction n with
  | zero => exact h
  | succ n ih => exact ih.writeCv _ _

end State.Inv

/-! #### FEED -/

/-- The cell loop does not see BUF (R156). -/
theorem clearBuf_decodeCells (f : List Byte) (n : Nat) (s : State) :
    clearBuf (decodeCells f n s) = decodeCells f n (clearBuf s) := by
  induction n with
  | zero => rfl
  | succ n ih =>
    rw [decodeCells, decodeCells, ← ih]
    rfl

/-- The tag-clear rule does not see BUF (R160). -/
theorem clearBuf_matchTag (g : Tag) (s : State) : clearBuf (matchTag g s) = matchTag g (clearBuf s) := by
  rw [matchTag_eq, matchTag_eq]
  rfl

namespace State.Inv

variable {s : State}

/-- CELLINFO keeps the invariant but for LEN, which FEED restores after DISPATCH (R135). -/
theorem clearBuf_decodeCellinfo (h : (Machine.clearBuf s).Inv) (f : List Byte) :
    (Machine.clearBuf (decodeCellinfo f s)).Inv := by
  obtain ⟨-, e⟩ | ⟨-, -, e⟩ | ⟨-, -, e⟩ := decodeCellinfo_cases f s <;> rw [e]
  · exact h.raise _
  · exact h.raise _
  · rw [clearBuf_matchTag, clearBuf_decodeCells]
    exact (h.acceptCells.decodeCells f _).matchTag 2

/-- DISPATCH keeps the invariant but for LEN, which FEED restores after it (R135). -/
theorem clearBuf_dispatch (h : (Machine.clearBuf s).Inv) (f : List Byte) :
    (Machine.clearBuf (dispatch f s)).Inv := by
  obtain ⟨-, e⟩ | ⟨-, -, e⟩ | ⟨-, -, e⟩ | ⟨-, -, e⟩ | ⟨-, -, -, -, e⟩ := dispatch_cases f s <;> rw [e]
  · exact h.raise _
  · exact h.decodeSettings f
  · exact h.clearBuf_decodeCellinfo f
  · rw [decodeDeviceinfo, clearBuf_matchTag]
    exact h.matchTag 3
  · exact h.raise _

/-- The status registers FEED remembers meet the invariant of the current ones (log 4). -/
theorem fedState (h : s.Inv) : (fedState s).Inv := { h with statusBefore := h.status }

/-- FEED either leaves an incomplete buffer or clears it (R27, R134 to R136). -/
theorem feedChunk (h : s.Inv) (c : List Byte) : (feedChunk c s).Inv := by
  obtain ⟨hshort, e⟩ | ⟨-, -, e⟩ | ⟨-, -, e⟩ := feedChunk_cases c s <;> rw [e]
  · exact { h.fedState with len := Nat.le_of_lt_succ hshort }
  · have hclear : (Machine.clearBuf { Machine.fedState s with buf := fedBuffer c s }).Inv := h.fedState.clearBuf
    exact hclear.clearBuf_dispatch _
  · exact h.fedState.clearBuf.raise _

/-! #### Commands -/

/-- LAUNCH sets a legal tag with age 0 and leaves nothing held (R203). -/
theorem launch (h : s.Inv) {g : Tag} (hg : g = 2 ∨ g = 3) : (launch g s).Inv := by
  have hlegal : g ≠ 1 := by obtain rfl | rfl := hg <;> decide
  rw [launch_frame]
  exact { h with
    pendLegal := hlegal
    ageIdle := fun _ => rfl
    holdTag := nofun
    holdClear := fun _ => ⟨rfl, rfl⟩
    waitLeAge := nofun }

theorem request (h : s.Inv) {g : Tag} (hg : g = 2 ∨ g = 3) : (request g s).Inv := by
  obtain ⟨-, e⟩ | ⟨-, -, e⟩ := request_cases g s <;> rw [e]
  · exact h.launch hg
  · exact h.holdRequest hg

theorem command (h : s.Inv) (w : CmdWord) : (command w s).Inv := by
  unfold Machine.command
  split_ifs
  · exact h.emit _
  · exact h.request (.inl rfl)
  · exact h.request (.inr rfl)
  · exact h

theorem accept (h : s.Inv) {act : State → State} (hact : (act s).Inv) : (accept act s).Inv := by
  rw [accept_eq]
  split
  · exact hact
  · exact h

/-! #### TICK -/

/-- CELL_AGE runs only once a frame was accepted (R205). -/
theorem tickCellAge (h : s.Inv) : (tickCellAge s).Inv := by
  rw [tickCellAge_eq]
  exact { h with
    unseenAge := fun hseen => by
      have hkept : tickedCellAge s = s.cellAge := if_neg (ne_true_of_eq_false hseen)
      exact hkept.trans (h.unseenAge hseen) }

/-- AGE may run while a request is pending, since WAIT is at most AGE (R31, R208). -/
theorem incAge (h : s.Inv) (hpend : s.pend ≠ 0) : (incAge s).Inv :=
  { h with
    ageIdle := fun hidle => absurd hidle hpend
    waitLeAge := fun hp hv => by
      have hle := h.waitLeAge hp hv
      have hage : (satInc s.age).toNat = min 255 (s.age.toNat + 1) := satInc_toNat s.age
      have hbyte := s.age.isLt
      show s.wait.toNat ≤ (satInc s.age).toNat
      omega }

theorem tickTimeout (h : s.Inv) : (tickTimeout s).Inv := by
  obtain ⟨-, e⟩ | ⟨hpend, -, e⟩ | ⟨hpend, -, e⟩ := tickTimeout_cases s <;> rw [e]
  · exact h
  · exact h.incAge hpend
  · exact (h.incAge hpend).setTag_zero.raise _

/-- While a request stays pending, TICK's step 2 makes room under AGE for the WAIT of step 3 (R208). -/
theorem satInc_wait_le_age_tickTimeout (h : s.Inv) (hpend : (Machine.tickTimeout s).pend ≠ 0)
    (hv : (Machine.tickTimeout s).holdV = true) :
    (satInc (Machine.tickTimeout s).wait).toNat ≤ (Machine.tickTimeout s).age.toNat := by
  obtain ⟨hidle, e⟩ | ⟨hp, -, e⟩ | ⟨-, -, e⟩ := tickTimeout_cases s <;> rw [e] at hpend hv ⊢
  · exact absurd hidle hpend
  · have hle := h.waitLeAge hp hv
    rw [incAge_wait, incAge_age, satInc_toNat, satInc_toNat]
    omega
  · exact absurd rfl hpend

/-- WAIT may run while there is room under AGE (R208). -/
theorem incWait (h : s.Inv) (hv : s.holdV = true) (hroom : s.pend ≠ 0 → (satInc s.wait).toNat ≤ s.age.toNat) :
    (incWait s).Inv :=
  { h with
    holdClear := fun hfree => absurd (hv.symm.trans hfree) (by decide)
    waitLeAge := fun hp _ => hroom hp }

theorem tickPoll (h : s.Inv)
    (hroom : s.pend ≠ 0 → s.holdV = true → (satInc s.wait).toNat ≤ s.age.toNat) : (tickPoll s).Inv := by
  obtain ⟨-, e⟩ | ⟨hv, -, e⟩ | ⟨hv, -, -, e⟩ := tickPoll_cases s <;> rw [e]
  · exact h
  · exact (h.incWait hv fun hp => hroom hp hv).launch (h.holdTag hv)
  · exact h.incWait hv fun hp => hroom hp hv

theorem tickUnit (h : s.Inv) : (tickUnit s).Inv :=
  h.tickCellAge.tickTimeout.tickPoll h.tickCellAge.satInc_wait_le_age_tickTimeout

/-! #### The system operations -/

theorem resetSession (h : s.Inv) : (resetSession s).Inv := h.clearBuf.setTag_zero.clearHold

theorem writeCfg (h : s.Inv) (c : CfgWrite) : (writeCfg c s).Inv := by
  cases c <;> exact { h with }

theorem readStatus (h : s.Inv) (overlap : Bool) : (readStatus overlap s).Inv := by
  cases overlap <;> exact { h with }

end State.Inv

/-- RESET establishes the invariant from any state (R50, R260). -/
theorem inv_resetEngine (s : State) : (resetEngine s).Inv where
  len := Nat.zero_le _
  pendLegal := show (0 : Tag) ≠ 1 by decide
  ageIdle _ := rfl
  holdTag := nofun
  holdClear _ := ⟨rfl, rfl⟩
  waitLeAge := nofun
  unseenAge _ := rfl
  status := statusInv_cleared s.params
  statusBefore := statusInv_cleared s.params

/-- Every port event keeps the invariant (R40, R70). -/
theorem exec_decodePort_inv {e : PortEvent} {s t : State} (h : s.Inv) (hexec : exec (decodePort e) s = .next t) :
    t.Inv := by
  cases e <;> cases hexec
  case rst => exact inv_resetEngine s
  case sessionReset => exact h.resetSession
  case cfg c => exact h.writeCfg c
  case inChunk c => exact h.feedChunk c
  case tick => exact h.tickUnit
  case cmd w => exact h.accept (h.command _)
  case status overlap => exact h.readStatus overlap

/-! ### The statements -/

/-- Settles O47: the step takes an event, which the invariant does not see, and every event keeps it. -/
theorem stepKeepsInvariant : Obligations.StepKeepsInvariant := by
  unfold Obligations.StepKeepsInvariant
  intro s t h hstep
  unfold step fetch at hstep
  cases hin : s.inbox with
  | nil =>
    rw [hin] at hstep
    cases hstep
    exact h
  | cons e rest =>
    rw [hin] at hstep
    exact exec_decodePort_inv (h.beginOp rest) hstep

/-- Settles O14: FEED by `feedChunk_len`, the frame routines by what they can write. -/
theorem bufferWriters : Obligations.BufferWriters := by
  unfold Obligations.BufferWriters
  intro i s t h
  obtain ⟨f, -, e⟩ | ⟨f, -, e⟩ | ⟨f, -, e⟩ | ⟨c, hc, e⟩ | ⟨hi, e⟩ | ⟨hi, e⟩ | ⟨c, -, e⟩ | hkeeps := exec_cases h
  · exact .inr (.inr (by rw [e]; rfl))
  · exact .inr (.inr (by rw [e, decodeCellinfo_frame]))
  · exact .inr (.inr (by rw [e, decodeDeviceinfo, matchTag_eq]))
  · exact .inl ⟨c, hc, by rw [e]; exact feedChunk_len c s⟩
  · exact .inr (.inl ⟨.inl hi, by rw [e]; rfl⟩)
  · exact .inr (.inl ⟨.inr hi, by rw [e]; rfl⟩)
  · exact .inr (.inr (by rw [e]; cases c <;> rfl))
  · exact .inr (.inr hkeeps.buf)

/-- Settles O17: the frame of FEED and what DISPATCH does to the tag. -/
theorem feedFrame : Obligations.FeedFrame := by
  unfold Obligations.FeedFrame
  intro c s
  exact ⟨feedChunk c s, rfl, feedChunk_frame c s, feedChunk_tag c s⟩

/-- Settles O38: SETTINGS validates all eight settings and no cell, the cell loop only cells. -/
theorem validBitsStaySet : Obligations.ValidBitsStaySet := by
  unfold Obligations.ValidBitsStaySet
  intro i s t h hi
  obtain e | ⟨-, f, e⟩ | ⟨-, f, n, e⟩ := exec_status h hi <;> rw [e]
  · exact ⟨fun _ hr => hr, fun _ _ hk => hk⟩
  · exact ⟨fun r _ => decodeSettings_valid f s r, fun _ _ hk => hk⟩
  · exact ⟨fun _ hr => by rwa [decodeCells_st], fun k _ hk => decodeCells_valid f n k s hk⟩

/-- Settles O39: the writers of `exec_status`, each of which writes one of the two files only. -/
theorem statusWriters : Obligations.StatusWriters := by
  unfold Obligations.StatusWriters
  intro i s t h hi
  obtain e | ⟨hwriter, f, e⟩ | ⟨hwriter, f, n, e⟩ := exec_status h hi <;> rw [e]
  · exact ⟨fun hne => absurd rfl hne, fun hne => absurd rfl hne⟩
  · exact ⟨fun _ => hwriter, fun hne => absurd rfl hne⟩
  · exact ⟨fun hne => absurd (decodeCells_st f n s) hne, fun _ => hwriter⟩

/-- Settles O40: neither the decode path nor the correlator writes the configuration, nothing the parameters. -/
theorem configurationWriters : Obligations.ConfigurationWriters := by
  unfold Obligations.ConfigurationWriters
  intro i s t h
  obtain ⟨hi, e⟩ | ⟨c, hi, e⟩ | hkeeps := exec_config h
  · exact ⟨by rw [e]; rfl, .inl hi⟩
  · exact ⟨by rw [e]; cases c <;> rfl, .inr (.inl ⟨c, hi⟩)⟩
  · exact ⟨hkeeps.params, .inr (.inr ⟨hkeeps.cfgProto, hkeeps.cfgRefresh, hkeeps.cfgTmo⟩)⟩

end Sys2Proof.Machine

/-! PROOFS. Scope: which state FEED depends on (R71, R280), where the fields of a frame lie (R66), which event a step
takes (R70), and the order of the events of one cycle (R72). -/

namespace Sys2Proof.Machine

/-! ### FEED and the held request -/

/-- `s` with the hold registers and the bound replaced: what a request that waits can differ in (R32, R34). -/
def withHold (hv : Bool) (ht : Tag) (w tmo : Byte) (s : State) : State :=
  { s with holdV := hv, holdT := ht, wait := w, cfgTmo := tmo }

section

variable (hv : Bool) (ht : Tag) (w tmo : Byte)

/-- The tag-clear rule neither reads nor writes the held request (R160). -/
theorem matchTag_withHold (g : Tag) (s : State) :
    matchTag g (withHold hv ht w tmo s) = withHold hv ht w tmo (matchTag g s) := by
  rw [matchTag_eq, matchTag_eq]
  rfl

/-- The cell loop neither reads nor writes the held request (R156). -/
theorem decodeCells_withHold (f : List Byte) (n : Nat) (s : State) :
    decodeCells f n (withHold hv ht w tmo s) = withHold hv ht w tmo (decodeCells f n s) := by
  induction n with
  | zero => rfl
  | succ n ih =>
    rw [decodeCells, ih]
    rfl

/-- CELLINFO takes the same one of its three outcomes whatever is held (R155 to R157). -/
theorem decodeCellinfo_withHold (f : List Byte) (s : State) :
    decodeCellinfo f (withHold hv ht w tmo s) = withHold hv ht w tmo (decodeCellinfo f s) := by
  have hdecoded (n : Nat) : matchTag 2 (decodeCells f n (acceptCells (withHold hv ht w tmo s)))
      = withHold hv ht w tmo (matchTag 2 (decodeCells f n (acceptCells s))) := by
    rw [← matchTag_withHold, ← decodeCells_withHold]
    rfl
  unfold decodeCellinfo
  dsimp only
  rw [hdecoded, apply_ite (withHold hv ht w tmo), apply_ite (withHold hv ht w tmo)]
  rfl

/-- DISPATCH selects the same routine whatever is held (R150 to R152). -/
theorem dispatch_withHold (f : List Byte) (s : State) :
    dispatch f (withHold hv ht w tmo s) = withHold hv ht w tmo (dispatch f s) := by
  unfold dispatch
  rw [apply_ite (withHold hv ht w tmo)]
  congr 1
  cases decodeKind (byteAt f Config.kindOff) with
  | error e => rfl
  | ok k =>
    cases k with
    | settings => rfl
    | cellinfo => exact decodeCellinfo_withHold hv ht w tmo f s
    | deviceinfo => exact matchTag_withHold hv ht w tmo 3 s

/-- FEED's step 4 evaluates the buffer alone (R134 to R136). -/
theorem feedEvaluate_withHold (s : State) :
    feedEvaluate (withHold hv ht w tmo s) = withHold hv ht w tmo (feedEvaluate s) := by
  unfold feedEvaluate
  dsimp only
  rw [apply_ite (withHold hv ht w tmo), apply_ite (withHold hv ht w tmo)]
  have hdispatch : clearBuf (dispatch s.buf (withHold hv ht w tmo s))
      = withHold hv ht w tmo (clearBuf (dispatch s.buf s)) := by
    rw [dispatch_withHold]
    rfl
  rw [← hdispatch]
  rfl

/-- FEED commutes with a change of the held request and of the bound (R71, R280). -/
theorem feedChunk_withHold (c : List Byte) (s : State) :
    feedChunk c (withHold hv ht w tmo s) = withHold hv ht w tmo (feedChunk c s) := by
  rw [feedChunk_eq, feedChunk_eq, ← feedEvaluate_withHold]
  rfl

end

/-- Settles O18: FEED commutes with replacing the held request and the bound. -/
theorem feedIgnoresHeldRequest : Obligations.FeedIgnoresHeldRequest := by
  unfold Obligations.FeedIgnoresHeldRequest
  intro c s hv ht w tmo
  exact ⟨feedChunk c s, rfl, congrArg Host.Outcome.next (feedChunk_withHold hv ht w tmo c s)⟩

/-! ### Where the fields lie -/

/-- Settles O24: R7 bounds the settings offsets by 295 and the number of cells by 146. -/
theorem fieldReadsStayInFrame : Obligations.FieldReadsStayInFrame := by
  unfold Obligations.FieldReadsStayInFrame
  intro p
  constructor
  · intro r
    have hrange := p.off_range r
    omega
  · intro i hi
    have hmax := p.ncellMax_le
    have hoff : cellOff i = 6 + 2 * i := rfl
    omega

/-! ### One step -/

/-- A step takes the oldest waiting event (R70, log 1). -/
theorem step_of_inbox_cons {s : State} {e : PortEvent} {rest : List PortEvent} (h : s.inbox = e :: rest) :
    step s = exec (decodePort e) { s with inbox := rest, out := ⟨[], [], none⟩ } := by
  have hs : s = { s with inbox := e :: rest } := by rw [← h]
  rw [hs]
  exact step_inbox_cons e { s with inbox := rest }

/-- With no event waiting the engine is idle (R247). -/
theorem step_of_inbox_nil {s : State} (h : s.inbox = []) : step s = .next s := by
  rw [step, fetch, h]

/-- Settles O43: the decoder is total on port events, and the step runs what it reads from the oldest. -/
theorem stepRunsTheOldestEvent : Obligations.StepRunsTheOldestEvent := by
  unfold Obligations.StepRunsTheOldestEvent
  constructor
  · intro s e rest h
    exact ⟨decodePort e, rfl, decodePort_wellFormed e, step_of_inbox_cons h⟩
  · intro s h
    exact step_of_inbox_nil h

/-! ### One cycle -/

/-- With RESET in the cycle the others are void (R72). -/
theorem cycleOrder_of_rst {x : Cycle} (h : x.rst = true) : cycleOrder x = [.rst] := by
  rw [cycleOrder, if_pos h]

/-- Without RESET the order is the ports' events one after the other (R72). -/
theorem cycleOrder_of_not_rst {x : Cycle} (h : x.rst = false) :
    cycleOrder x
      = (if x.sessionReset then [.sessionReset] else []) ++ (x.cfg.map PortEvent.cfg).toList
        ++ (x.chunk.map PortEvent.inChunk).toList ++ (if x.tick then [.tick] else [])
        ++ (x.cmd.map PortEvent.cmd).toList ++ (x.status.map PortEvent.status).toList := by
  rw [cycleOrder, h, if_neg Bool.false_ne_true]

/-- Without RESET exactly the events that fall in the cycle have a place in its order (R72). -/
theorem mem_cycleOrder_iff {x : Cycle} (h : x.rst = false) (e : PortEvent) : e ∈ cycleOrder x ↔ FallsIn x e := by
  rw [cycleOrder_of_not_rst h]
  cases e <;> simp [FallsIn, h]

/-- A port without operand takes at most its own place. -/
theorem map_place_ite_sublist (b : Bool) (e : PortEvent) :
    ((if b then [e] else []).map placeInCycle).Sublist [placeInCycle e] := by
  cases b with
  | false => exact List.nil_sublist _
  | true => exact List.Sublist.refl _

/-- A port with an operand takes at most the one place of its events. -/
theorem map_place_toList_sublist {α : Type} (port : α → PortEvent) (k : Nat) (o : Option α)
    (h : ∀ a, placeInCycle (port a) = k) :
    ((o.map port).toList.map placeInCycle).Sublist [k] := by
  cases o with
  | none => exact List.nil_sublist _
  | some a => simp [h]

/-- Without RESET the places taken are some of 1 to 6, in that order (R72). -/
theorem map_place_cycleOrder_sublist {x : Cycle} (h : x.rst = false) :
    ((cycleOrder x).map placeInCycle).Sublist [1, 2, 3, 4, 5, 6] := by
  rw [cycleOrder_of_not_rst h]
  simp only [List.map_append]
  have hreset := map_place_ite_sublist x.sessionReset .sessionReset
  have hcfg := map_place_toList_sublist .cfg 2 x.cfg fun _ => rfl
  have hchunk := map_place_toList_sublist .inChunk 3 x.chunk fun _ => rfl
  have htick := map_place_ite_sublist x.tick .tick
  have hcmd := map_place_toList_sublist .cmd 5 x.cmd fun _ => rfl
  have hstatus := map_place_toList_sublist .status 6 x.status fun _ => rfl
  exact ((((hreset.append hcfg).append hchunk).append htick).append hcmd).append hstatus

/-- Without RESET the places in the order rise strictly, so no event has two (R72). -/
theorem pairwise_cycleOrder {x : Cycle} (h : x.rst = false) :
    (cycleOrder x).Pairwise (fun a b => placeInCycle a < placeInCycle b) :=
  List.pairwise_map.mp (List.Pairwise.sublist (map_place_cycleOrder_sublist h) (by decide))

/-- Settles O45: RESET alone by definition; else membership port by port, and the order by the places. -/
theorem cycleOrderIsFixed : Obligations.CycleOrderIsFixed := by
  unfold Obligations.CycleOrderIsFixed
  intro x
  exact ⟨cycleOrder_of_rst, fun h => ⟨mem_cycleOrder_iff h, pairwise_cycleOrder h⟩, fun _ _ _ _ => rfl⟩

end Sys2Proof.Machine

/-! PROOFS. The encodings: decode of encode (R90, R101, R108), the outbound frames (R98, R99), words written out from
the spec, and that no byte outside the decoded fields matters (R104). -/

namespace Sys2Proof.Machine

/-! ### Inbound frames -/

/-- A complete frame with the byte of kind `k` decodes to the row of `k` (R91, R93). -/
theorem decodeFrameIn_of_kind {k : FrameKind} {f : List Byte} (hlen : 300 ≤ f.length) (hkind : byteAt f 4 = k.byte) :
    decodeFrameIn f = .ok (frameInstr k f) := by
  have hlong : ¬ f.length < Config.minFrame := Nat.not_lt.mpr hlen
  rw [decodeFrameIn, if_neg hlong, Config.kindOff, hkind, decodeKind_byte]
  cases k <;> rfl

/-- A well-formed frame of kind `k` decodes to the row of `k` (R91, R93). -/
theorem decodeFrameIn_of_frameOk {k : FrameKind} {f : List Byte} (hok : frameOk k f = true) :
    decodeFrameIn f = .ok (frameInstr k f) := by
  obtain ⟨hlen, hkind, -⟩ := (frameOk_iff k f).mp hok
  exact decodeFrameIn_of_kind hlen hkind

/-! ### Command words -/

/-- A word with `cmd_op` 0 asks for WRITE_REG with its other fields (R101). -/
theorem decode_command_of_op_zero {w : BitVec 50} {a l : Byte} {v : Value} (p : Params)
    (h : decodeCmdWord w = ⟨0, a, l, v⟩) : decode p (.command w) = .ok (.writeReg a l v) := by
  rw [decode, decodeCommand, h]
  rfl

/-- A word with `cmd_op` 1 asks for REQ_CELL_INFO, whatever its other fields (R101). -/
theorem decode_command_of_op_one {w : BitVec 50} (p : Params) (h : (decodeCmdWord w).op = 1) :
    decode p (.command w) = .ok .reqCellInfo := by
  rw [decode, decodeCommand, h]
  rfl

/-- A word with `cmd_op` 2 asks for REQ_DEVICE_INFO, whatever its other fields (R101). -/
theorem decode_command_of_op_two {w : BitVec 50} (p : Params) (h : (decodeCmdWord w).op = 2) :
    decode p (.command w) = .ok .reqDeviceInfo := by
  rw [decode, decodeCommand, h]
  rfl

/-- A word with `cmd_op` 3 asks for no outbound row (R106). -/
theorem decode_command_of_op_three {w : BitVec 50} (p : Params) (h : (decodeCmdWord w).op = 3) :
    decode p (.command w) = .error .reservedCommand := by
  rw [decode, decodeCommand, h]
  rfl

/-- Settles O48: IN rows by their kind byte, OUT rows and CMD by the round trip of the command word, the other rows by
their port or their call. -/
theorem decodeOfEncode : Obligations.DecodeOfEncode := by
  unfold Obligations.DecodeOfEncode
  intro p i hwf
  cases i with
  | settings f => exact decodeFrameIn_of_frameOk (k := .settings) hwf
  | cellinfo f => exact decodeFrameIn_of_frameOk (k := .cellinfo) hwf
  | deviceinfo f => exact decodeFrameIn_of_frameOk (k := .deviceinfo) hwf
  | writeReg a l v => exact decode_command_of_op_zero p (decodeCmdWord_encodeCmdWord ⟨0, a, l, v⟩)
  | reqCellInfo =>
    exact decode_command_of_op_one p (congrArg CmdWord.op (decodeCmdWord_encodeCmdWord ⟨1, 0, 0, Value.zero⟩))
  | reqDeviceInfo =>
    exact decode_command_of_op_two p (congrArg CmdWord.op (decodeCmdWord_encodeCmdWord ⟨2, 0, 0, Value.zero⟩))
  | cmd w => exact congrArg (fun c => Except.ok (Instr.cmd c)) (decodeCmdWord_encodeCmdWord w)
  | feed c => rfl
  | tick => rfl
  | sessionReset => rfl
  | reset => rfl
  | statusRead o => rfl
  | cfgWrite c => rfl
  | checksum b n => rfl
  | build a l v => rfl

/-! ### Outbound frames -/

theorem buildFrame_length (a l : Byte) (v : Value) : (buildFrame a l v).length = 20 := rfl

/-- The last byte of BUILD's frame is the checksum of the bytes before it (R122, R180). -/
theorem checksum_buildFrame (a l : Byte) (v : Value) :
    checksum (buildFrame a l v) 19 = byteAt (buildFrame a l v) 19 :=
  checksum_append _ _ 19 (Nat.le_refl 19)

/-- What the frame of a register write decodes to: the request whose bytes it has, or else that write (R99, log 9). -/
theorem decodeFrameOut_buildFrame (p : Params) (a l : Byte) (v : Value) :
    decodeFrameOut p (buildFrame a l v)
      = if a = 0x96 ∧ l = 0 ∧ v = Value.zero then .ok .reqCellInfo
        else if a = p.addrReqDeviceInfo ∧ l = 0 ∧ v = Value.zero then .ok .reqDeviceInfo
        else .ok (.writeReg a l v) := rfl

/-- The frame of REQ_CELL_INFO decodes to it (R99). -/
theorem decodeFrameOut_cellRequestFrame (p : Params) : decodeFrameOut p cellRequestFrame = .ok .reqCellInfo :=
  (decodeFrameOut_buildFrame p 0x96 0 Value.zero).trans (if_pos ⟨rfl, rfl, rfl⟩)

/-- The frame of REQ_DEVICE_INFO decodes to it: R7 keeps the two request addresses apart (R99). -/
theorem decodeFrameOut_deviceRequestFrame (p : Params) :
    decodeFrameOut p (deviceRequestFrame p) = .ok .reqDeviceInfo := by
  rw [deviceRequestFrame, decodeFrameOut_buildFrame, if_neg fun h => p.addr_ne h.1, if_pos ⟨rfl, rfl, rfl⟩]

/-- Only the three outbound forms have an outbound frame (R98, R99). -/
theorem encodeFrameOut_cases {p : Params} {i : Instr} {f : List Byte} (h : encodeFrameOut p i = some f) :
    (∃ a l v, i = .writeReg a l v ∧ f = buildFrame a l v)
    ∨ (i = .reqCellInfo ∧ f = cellRequestFrame)
    ∨ (i = .reqDeviceInfo ∧ f = deviceRequestFrame p) := by
  cases i with
  | writeReg a l v => exact .inl ⟨a, l, v, rfl, (Option.some.inj h).symm⟩
  | reqCellInfo => exact .inr (.inl ⟨rfl, (Option.some.inj h).symm⟩)
  | reqDeviceInfo => exact .inr (.inr ⟨rfl, (Option.some.inj h).symm⟩)
  | _ => exact nomatch h

/-- An outbound frame is one of BUILD's (R98, R180). -/
theorem exists_buildFrame_of_encodeFrameOut {p : Params} {i : Instr} {f : List Byte}
    (h : encodeFrameOut p i = some f) : ∃ a l v, f = buildFrame a l v := by
  obtain ⟨a, l, v, -, e⟩ | ⟨-, e⟩ | ⟨-, e⟩ := encodeFrameOut_cases h
  · exact ⟨a, l, v, e⟩
  · exact ⟨_, _, _, e⟩
  · exact ⟨_, _, _, e⟩

/-- Settles O49: BUILD fixes length and checksum; a request's frame decodes to it, and a WRITE_REG's to itself unless
its address, length and value are those of a request. -/
theorem outboundFrameDecodes : Obligations.OutboundFrameDecodes := by
  unfold Obligations.OutboundFrameDecodes
  intro p i f h
  obtain ⟨a', l', v', hbuild⟩ := exists_buildFrame_of_encodeFrameOut h
  refine ⟨hbuild ▸ buildFrame_length a' l' v', hbuild ▸ checksum_buildFrame a' l' v', ?_⟩
  obtain ⟨a, l, v, rfl, rfl⟩ | ⟨rfl, rfl⟩ | ⟨rfl, rfl⟩ := encodeFrameOut_cases h
  · by_cases hcell : a = 0x96 ∧ l = 0 ∧ v = Value.zero
    · obtain ⟨rfl, rfl, rfl⟩ := hcell
      exact .inr ⟨⟨0x96, rfl, .inl rfl⟩, .reqCellInfo, .inl rfl, rfl, decodeFrameOut_cellRequestFrame p⟩
    by_cases hdevice : a = p.addrReqDeviceInfo ∧ l = 0 ∧ v = Value.zero
    · obtain ⟨rfl, rfl, rfl⟩ := hdevice
      exact .inr ⟨⟨p.addrReqDeviceInfo, rfl, .inr rfl⟩, .reqDeviceInfo, .inr rfl, rfl,
        decodeFrameOut_deviceRequestFrame p⟩
    · left
      rw [decode, decodeFrameOut_buildFrame, if_neg hcell, if_neg hdevice]
  · exact .inl (decodeFrameOut_cellRequestFrame p)
  · exact .inl (decodeFrameOut_deviceRequestFrame p)

/-! ### Words written out from the spec -/

/-- A frame of 300 bytes written out as marker, kind byte and rest decodes to the row of its kind (R93). -/
theorem decode_frameIn_written (p : Params) (k : FrameKind) {rest : List Byte} (h : rest.length = 295) :
    decode p (.frameIn ([0x55, 0xAA, 0xEB, 0x90, k.byte] ++ rest))
      = .ok (frameInstr k ([0x55, 0xAA, 0xEB, 0x90, k.byte] ++ rest)) :=
  decodeFrameIn_of_kind (by simp [h]) rfl

/-- Settles O50: the frames are those of `decode_frameIn_written` and of BUILD, the command words are read field by
field, and kind selection succeeds on no other byte. -/
theorem specWordsDecode : Obligations.SpecWordsDecode := by
  unfold Obligations.SpecWordsDecode
  refine ⟨fun rest h => ⟨decode_frameIn_written _ .settings h, decode_frameIn_written _ .cellinfo h,
      decode_frameIn_written _ .deviceinfo h⟩,
    decodeFrameOut_cellRequestFrame Params.default, decodeFrameOut_deviceRequestFrame Params.default,
    decodeFrameOut_buildFrame Params.default 0x1D 4 ⟨1, 0, 0, 0⟩,
    decode_command_of_op_zero _ (by decide), decode_command_of_op_one _ (by decide),
    decode_command_of_op_two _ (by decide), decode_command_of_op_three _ (by decide), ?_⟩
  intro k h1 h2 h3
  obtain ⟨e, -⟩ | ⟨e, -⟩ | ⟨e, -⟩ | ⟨-, -, -, e⟩ := decodeKind_cases k
  · exact absurd e h1
  · exact absurd e h2
  · exact absurd e h3
  · exact e

/-! ### Bytes outside the decoded fields -/

/-- A 32-bit field depends on its four bytes only (R63, R66). -/
theorem field32_congr {f g : List Byte} {a : Nat} (hf : a + 4 ≤ f.length) (hg : a + 4 ≤ g.length)
    (h : ∀ j, j < 4 → byteAt f (a + j) = byteAt g (a + j)) : field32 f a = field32 g a := by
  have h0 : byteAt f a = byteAt g a := h 0 (by decide)
  apply BitVec.eq_of_toNat_eq
  rw [field32_toNat f a hf, field32_toNat g a hg, h0, h 1 (by decide), h 2 (by decide), h 3 (by decide)]

/-- A cell field depends on its two bytes only (R63, R66). -/
theorem field16_congr {f g : List Byte} {i : Nat} (hf : cellOff i + 2 ≤ f.length) (hg : cellOff i + 2 ≤ g.length)
    (hlow : byteAt f (6 + 2 * i) = byteAt g (6 + 2 * i)) (hhigh : byteAt f (7 + 2 * i) = byteAt g (7 + 2 * i)) :
    field16 f i = field16 g i := by
  apply BitVec.eq_of_toNat_eq
  rw [field16_toNat f i hf, field16_toNat g i hg, hlow, hhigh]

/-- SETTINGS depends on its eight fields only (R153). -/
theorem decodeSettings_congr {f g : List Byte} {s : State}
    (h : ∀ r, field32 f (s.params.off.get r) = field32 g (s.params.off.get r)) :
    decodeSettings f s = decodeSettings g s := by
  rw [decodeSettings_eq, decodeSettings_eq]
  dsimp only
  congr 4
  exacts [h .uvp, h .uvpr, h .ovp, h .ovpr, h .baltrig, h .pwroff, h .maxchg, h .cellcnt]

/-- The cell loop depends on the fields of its `n` cells only (R156). -/
theorem decodeCells_congr {f g : List Byte} {n : Nat} (s : State) (h : ∀ i, i < n → field16 f i = field16 g i) :
    decodeCells f n s = decodeCells g n s := by
  induction n with
  | zero => rfl
  | succ n ih => rw [decodeCells, decodeCells, h n n.lt_succ_self, ih fun i hi => h i (Nat.lt_succ_of_lt hi)]

/-- CELLINFO depends on the fields of its cells only, and on those only when their number is in range (R155 to
R157). -/
theorem decodeCellinfo_congr {f g : List Byte} {s : State}
    (h : s.status.st.cellcnt.val.toNat ≤ s.params.ncellMax →
      ∀ i, i < s.status.st.cellcnt.val.toNat → field16 f i = field16 g i) :
    decodeCellinfo f s = decodeCellinfo g s := by
  unfold decodeCellinfo
  dsimp only
  by_cases hrange : s.params.ncellMax < s.status.st.cellcnt.val.toNat
  · rw [if_pos hrange, if_pos hrange]
  · rw [decodeCells_congr _ (h (Nat.not_lt.mp hrange))]

/-- On a complete frame the row SETTINGS is its decode (R153). -/
theorem exec_settings {f : List Byte} (s : State) (hlen : 300 ≤ f.length) :
    exec (.settings f) s = .next (decodeSettings f s) := if_neg (Nat.not_lt.mpr hlen)

/-- On a complete frame the row CELLINFO is its decode (R155 to R157). -/
theorem exec_cellinfo {f : List Byte} (s : State) (hlen : 300 ≤ f.length) :
    exec (.cellinfo f) s = .next (decodeCellinfo f s) := if_neg (Nat.not_lt.mpr hlen)

/-- Settles O23: every field lies inside a complete frame (R66), so frames that agree on the bytes of the fields agree
on the fields. -/
theorem undecodedBytesAreIgnored : Obligations.UndecodedBytesAreIgnored := by
  unfold Obligations.UndecodedBytesAreIgnored
  intro f g s hf hg
  obtain ⟨hsettings, hcells⟩ := fieldReadsStayInFrame s.params
  constructor
  · intro h
    rw [exec_settings s hf, exec_settings s hg, decodeSettings_congr fun r => ?_]
    have hr := hsettings r
    exact field32_congr (by omega) (by omega) (h r)
  · intro h
    rw [exec_cellinfo s hf, exec_cellinfo s hg, decodeCellinfo_congr fun hrange i hi => ?_]
    have hc := hcells i (by omega)
    exact field16_congr (by omega) (by omega) (h _ (by omega) (by omega)) (h _ (by omega) (by omega))

end Sys2Proof.Machine

/-! PROOFS. The checksum: the sum of its bytes in 8 bits (R120), and what changing bytes does to it and to FEED
(R123). -/

namespace Sys2Proof.Machine

/-! ### Replacing a byte -/

theorem byteAt_set_self {f : List Byte} {i : Nat} (b : Byte) (h : i < f.length) : byteAt (f.set i b) i = b := by
  rw [byteAt_of_lt _ i (by rwa [List.length_set]), List.getElem_set_self]

theorem byteAt_set_of_ne (f : List Byte) {i j : Nat} (b : Byte) (h : i ≠ j) :
    byteAt (f.set i b) j = byteAt f j := by
  simp [byteAt, List.getElem?_set_ne h]

/-! ### The checksum as a sum of bytes -/

/-- The checksum is a sum in the ring of bytes, so the laws of sums apply to it (R120). -/
theorem checksum_eq_sum (f : List Byte) (n : Nat) : checksum f n = (f.take n).sum := by
  rw [checksum_eq_foldl, List.sum_eq_foldl]

/-- Neither the order of the summed bytes nor the bytes after them matter (R120). -/
theorem checksum_eq_of_perm {f g : List Byte} {n : Nat} (h : (f.take n).Perm (g.take n)) :
    checksum f n = checksum g n := by
  rw [checksum_eq_sum, checksum_eq_sum, h.sum_eq]

/-- A byte after the summed ones takes no part (R120). -/
theorem checksum_set_of_le (f : List Byte) {n i : Nat} (b : Byte) (h : n ≤ i) :
    checksum (f.set i b) n = checksum f n := by
  rw [checksum_eq_sum, checksum_eq_sum, List.take_set_of_le h]

/-- Replacing a summed byte moves the checksum by the difference of the two bytes (R123). -/
theorem checksum_set_of_lt {f : List Byte} {n i : Nat} (b : Byte) (hn : i < n) (hlen : i < f.length) :
    checksum (f.set i b) n = checksum f n + (b - byteAt f i) := by
  have hi : i < (f.take n).length := by rw [List.length_take]; omega
  rw [checksum_eq_sum, checksum_eq_sum, List.take_set, List.sum_set', dif_pos hi, List.getElem_take,
    ← byteAt_of_lt f i hlen, neg_add_eq_sub]

/-- A changed summed byte moves the computed byte but not the stored one, and a changed stored byte the other way
round, so one change of a valid frame makes them differ (R123). -/
theorem checksum_set_ne_byteAt {f : List Byte} {i : Nat} {b : Byte} (hlen : 300 ≤ f.length) (hi : i < 300)
    (hb : b ≠ byteAt f i) (hck : checksum f 299 = byteAt f 299) :
    checksum (f.set i b) 299 ≠ byteAt (f.set i b) 299 := by
  obtain hlt | rfl : i < 299 ∨ i = 299 := by omega
  · rw [checksum_set_of_lt b hlt (by omega), byteAt_set_of_ne f b (by omega), ← hck]
    exact fun h => hb (sub_eq_zero.mp (add_eq_left.mp h))
  · rw [checksum_set_of_le f b (Nat.le_refl 299), byteAt_set_self b (by omega), hck]
    exact hb.symm

/-! ### The operations -/

/-- Within the bytes the row CHECKSUM answers the checksum and changes nothing else (R120, log 5). -/
theorem exec_checksum {v : List Byte} {n : Nat} (s : State) (h : n ≤ v.length) :
    exec (.checksum v n) s = .next (answer (.byte (checksum v n)) s) := if_neg (Nat.not_lt.mpr h)

/-- With nothing buffered FEED evaluates the chunk alone (R131 to R133). -/
theorem fedBuffer_of_buf_nil (c : List Byte) {s : State} (h : s.buf = []) : fedBuffer c s = c := by
  simp [fedBuffer, h]

/-- With nothing buffered FEED raises no OVF (R131). -/
theorem fedState_of_buf_nil {s : State} (h : s.buf = []) : fedState s = markFeed s := by
  simp [fedState, markFeed, h]

theorem clearBuf_of_buf_nil {s : State} (h : s.buf = []) : clearBuf s = s := by
  rw [clearBuf, ← h]

/-- A complete frame with a wrong checksum, fed to the empty buffer, is discarded with CSF (R136). -/
theorem feedChunk_invalid_frame {f : List Byte} {s : State} (hbuf : s.buf = []) (hlen : 300 ≤ f.length)
    (hck : checksum f 299 ≠ byteAt f 299) :
    feedChunk f s = raise (.csf (checksum f 299) (byteAt f 299)) (markFeed s) := by
  have hcases := feedChunk_cases f s
  rw [fedBuffer_of_buf_nil f hbuf, fedState_of_buf_nil hbuf, clearBuf_of_buf_nil (s := markFeed s) hbuf] at hcases
  obtain ⟨hshort, -⟩ | ⟨-, hgood, -⟩ | ⟨-, -, e⟩ := hcases
  · exact absurd hshort (Nat.not_lt.mpr hlen)
  · exact absurd hgood hck
  · exact e

/-! ### The statements -/

/-- Settles O2: the changed frame is complete and its checksum is wrong, so FEED discards it with CSF (R123, R136). -/
theorem singleByteChangeIsDetected : Obligations.SingleByteChangeIsDetected := by
  unfold Obligations.SingleByteChangeIsDetected
  intro f i b s hlen hi hb hck hbuf
  have hne := checksum_set_ne_byteAt hlen hi hb hck
  have hlen' : 300 ≤ (f.set i b).length := by rwa [List.length_set]
  exact ⟨_, _, hne, congrArg Host.Outcome.next (feedChunk_invalid_frame hbuf hlen' hne)⟩

/-- Settles O3: each change moves the checksum by its difference, and the two differences add up to 0 (R123). -/
theorem cancellingChangesAreNotDetected : Obligations.CancellingChangesAreNotDetected := by
  unfold Obligations.CancellingChangesAreNotDetected
  intro f i j b c hi hj hij hlen hsum
  have hj' : j < (f.set i b).length := by rw [List.length_set]; omega
  rw [checksum_set_of_lt c hj hj', checksum_set_of_lt b hi (by omega), byteAt_set_of_ne f b hij]
  linear_combination hsum

/-- Settles O1: the row answers the checksum, which is the sum mod 256 and in 8 bits, and a permutation has the same
sum (R120). -/
theorem checksumIsByteSum : Obligations.ChecksumIsByteSum := by
  unfold Obligations.ChecksumIsByteSum
  intro v n s hn
  refine ⟨checksum v n, exec_checksum s hn, checksum_toNat v n, checksum_eq_foldl v n, fun w hw hperm => ?_⟩
  rw [exec_checksum s hw, exec_checksum s hn, checksum_eq_of_perm hperm]

end Sys2Proof.Machine

/-! PROOFS. The frame assembler: what FEED does with a short, a valid and an invalid buffer (R130 to R137), which
conditions it raises (R231), and that chunk boundaries do not matter (R141). -/

namespace Sys2Proof.Machine

/-! ### The outcomes of FEED -/

theorem exec_feed (c : List Byte) (s : State) : exec (.feed c) s = .next (feedChunk c s) := rfl

/-- An incomplete buffer is kept and nothing is evaluated (R134). -/
theorem feedChunk_of_short {c : List Byte} {s : State} (hshort : (fedBuffer c s).length < 300) :
    feedChunk c s = { fedState s with buf := fedBuffer c s } := by
  obtain ⟨-, e⟩ | ⟨hlen, -, -⟩ | ⟨hlen, -, -⟩ := feedChunk_cases c s
  · exact e
  · exact absurd hshort (Nat.not_lt.mpr hlen)
  · exact absurd hshort (Nat.not_lt.mpr hlen)

/-- A complete buffer with the right checksum is dispatched and cleared (R135). -/
theorem feedChunk_of_valid {c : List Byte} {s : State} (hlen : 300 ≤ (fedBuffer c s).length)
    (hck : checksum (fedBuffer c s) 299 = byteAt (fedBuffer c s) 299) :
    feedChunk c s = clearBuf (dispatch (fedBuffer c s) { fedState s with buf := fedBuffer c s }) := by
  obtain ⟨hshort, -⟩ | ⟨-, -, e⟩ | ⟨-, hbad, -⟩ := feedChunk_cases c s
  · exact absurd hshort (Nat.not_lt.mpr hlen)
  · exact e
  · exact absurd hck hbad

/-- A complete buffer with a wrong checksum is discarded with CSF (R136). -/
theorem feedChunk_of_invalid {c : List Byte} {s : State} (hlen : 300 ≤ (fedBuffer c s).length)
    (hck : checksum (fedBuffer c s) 299 ≠ byteAt (fedBuffer c s) 299) :
    feedChunk c s
      = raise (.csf (checksum (fedBuffer c s) 299) (byteAt (fedBuffer c s) 299)) (clearBuf (fedState s)) := by
  obtain ⟨hshort, -⟩ | ⟨-, hgood, -⟩ | ⟨-, -, e⟩ := feedChunk_cases c s
  · exact absurd hshort (Nat.not_lt.mpr hlen)
  · exact absurd hgood hck
  · exact e

/-- After every FEED the buffer is incomplete (R140, R27). -/
theorem feedChunk_buf_length_le (c : List Byte) (s : State) : (feedChunk c s).buf.length ≤ 299 := by
  obtain ⟨hshort, e⟩ | ⟨-, -, e⟩ | ⟨-, -, e⟩ := feedChunk_cases c s <;> rw [e]
  · exact Nat.le_of_lt_succ hshort
  · exact Nat.zero_le _
  · exact Nat.zero_le _

/-! ### The outcomes of DISPATCH that decode nothing -/

/-- Under another protocol version DISPATCH raises VER (R151). -/
theorem dispatch_of_proto_ne (f : List Byte) {s : State} (h : s.cfgProto ≠ s.params.protoImpl) :
    dispatch f s = raise (.ver s.cfgProto) s := if_pos h

/-- With decoding on, a kind byte of no kind raises UNK (R159). -/
theorem dispatch_of_unknown_kind {f : List Byte} {s : State} (hproto : s.cfgProto = s.params.protoImpl)
    (h1 : byteAt f 4 ≠ 1) (h2 : byteAt f 4 ≠ 2) (h3 : byteAt f 4 ≠ 3) :
    dispatch f s = raise (.unk (byteAt f 4)) s := by
  obtain ⟨hne, -⟩ | ⟨-, hk, -⟩ | ⟨-, hk, -⟩ | ⟨-, hk, -⟩ | ⟨-, -, -, -, e⟩ := dispatch_cases f s
  · exact absurd hproto hne
  · exact absurd hk h1
  · exact absurd hk h2
  · exact absurd hk h3
  · exact e

/-! ### The sticky bits of a list of conditions -/

theorem Event.code_lt (e : Event) : e.code < 8 := by cases e <;> simp [Event.code]

/-- Bit `k` of EVT belongs to the condition with code `k` (R35, R230). -/
theorem evtBit_getLsbD (e : Event) (k : Nat) : (evtBit e).getLsbD k = decide (e.code = k) := by
  have hpow : evtBit e = BitVec.twoPow 8 e.code :=
    BitVec.eq_of_toNat_eq (by rw [evtBit, BitVec.toNat_ofNat, BitVec.toNat_twoPow])
  rw [hpow, BitVec.getLsbD_twoPow, decide_eq_true e.code_lt, Bool.true_and]

theorem evtBits_singleton (e : Event) : evtBits [e] = evtBit e := BitVec.zero_or

/-- Bit `k` is among the bits of a list of conditions when one of them has code `k` (R35, R231). -/
theorem evtBits_getLsbD (es : List Event) (k : Nat) :
    (evtBits es).getLsbD k = es.any fun e => decide (e.code = k) := by
  induction es with
  | nil => exact BitVec.getLsbD_zero
  | cons e es ih =>
    have hsplit : evtBits (e :: es) = evtBit e ||| evtBits es := by
      rw [← List.singleton_append, evtBits_append, evtBits_singleton]
    rw [hsplit, BitVec.getLsbD_or, evtBit_getLsbD, ih, List.any_cons]

/-! ### The conditions FEED raises -/

/-- Between `s` and `t` exactly the conditions `es` are raised, in this order (R231). -/
structure Raises (es : List Event) (s t : State) : Prop where
  events : t.out.events = s.out.events ++ es
  evt : t.evt = s.evt ||| evtBits es

theorem Raises.nil {s t : State} (hevents : t.out.events = s.out.events) (hevt : t.evt = s.evt) :
    Raises [] s t where
  events := by rw [hevents, List.append_nil]
  evt := by rw [hevt]; exact BitVec.or_zero.symm

theorem raises_raise (e : Event) (s : State) : Raises [e] s (raise e s) where
  events := rfl
  evt := by rw [raise_evt, evtBits_singleton]

theorem Raises.trans {es fs : List Event} {s t u : State} (hst : Raises es s t) (htu : Raises fs t u) :
    Raises (es ++ fs) s u where
  events := by rw [htu.events, hst.events, List.append_assoc]
  evt := by rw [htu.evt, hst.evt, evtBits_append, BitVec.or_assoc]

/-- The conditions the evaluation of a buffer can raise: none, or one of CSF, VER, UNK, RNG and RLM (R242). -/
def EvaluationConditions (es : List Event) : Prop := es = [] ∨ ∃ e, es = [e] ∧ e.code ∈ [1, 2, 4, 5, 7]

/-- Raising a condition an evaluation can raise (R231, R242). -/
theorem exists_raises_raise {e : Event} (s : State) (h : e.code ∈ [1, 2, 4, 5, 7]) :
    ∃ es, Raises es s (raise e s) ∧ EvaluationConditions es :=
  ⟨[e], raises_raise e s, .inr ⟨e, rfl, h⟩⟩

/-- The tag-clear rule raises nothing (R160). -/
theorem raises_matchTag (g : Tag) (s : State) : Raises [] s (matchTag g s) := by
  rw [matchTag_eq]
  exact .nil rfl rfl

/-- CELLINFO raises nothing, or RLM, or RNG (R155 to R157). -/
theorem decodeCellinfo_raises (f : List Byte) (s : State) :
    ∃ es, Raises es s (decodeCellinfo f s) ∧ EvaluationConditions es := by
  obtain ⟨-, e⟩ | ⟨-, -, e⟩ | ⟨-, -, e⟩ := decodeCellinfo_cases f s <;> rw [e]
  · exact exists_raises_raise s (by simp [Event.code])
  · exact exists_raises_raise s (by simp [Event.code])
  · refine ⟨[], ?_, .inl rfl⟩
    rw [decodeCells_eq, matchTag_eq]
    exact .nil rfl rfl

/-- DISPATCH raises VER, or UNK, or what CELLINFO raises, or nothing (R150 to R159). -/
theorem dispatch_raises (f : List Byte) (s : State) :
    ∃ es, Raises es s (dispatch f s) ∧ EvaluationConditions es := by
  obtain ⟨-, e⟩ | ⟨-, -, e⟩ | ⟨-, -, e⟩ | ⟨-, -, e⟩ | ⟨-, -, -, -, e⟩ := dispatch_cases f s <;> rw [e]
  · exact exists_raises_raise s (by simp [Event.code])
  · exact ⟨[], .nil rfl rfl, .inl rfl⟩
  · exact decodeCellinfo_raises f s
  · exact ⟨[], raises_matchTag 3 s, .inl rfl⟩
  · exact exists_raises_raise s (by simp [Event.code])

/-- Step 1 of FEED raises OVF when the buffer exceeded 320 bytes (R131, R232). -/
theorem fedState_raises (s : State) :
    Raises (if 320 < s.buf.length then [.ovf s.buf.length] else []) s (fedState s) := by
  unfold fedState
  by_cases h : 320 < s.buf.length
  · simp only [if_pos h]
    exact ⟨(raises_raise (.ovf s.buf.length) s).events, (raises_raise (.ovf s.buf.length) s).evt⟩
  · simp only [if_neg h]
    exact .nil rfl rfl

/-- Step 4 of FEED raises nothing, or CSF, or what DISPATCH raises (R134 to R136). -/
theorem feedChunk_raises (c : List Byte) (s : State) :
    ∃ es, Raises es (fedState s) (feedChunk c s) ∧ EvaluationConditions es := by
  obtain ⟨-, e⟩ | ⟨-, -, e⟩ | ⟨-, -, e⟩ := feedChunk_cases c s <;> rw [e]
  · exact ⟨[], .nil rfl rfl, .inl rfl⟩
  · obtain ⟨es, hraises, hes⟩ := dispatch_raises (fedBuffer c s) { fedState s with buf := fedBuffer c s }
    exact ⟨es, ⟨hraises.events, hraises.evt⟩, hes⟩
  · obtain ⟨es, hraises, hes⟩ := exists_raises_raise (clearBuf (fedState s))
      (e := .csf (checksum (fedBuffer c s) 299) (byteAt (fedBuffer c s) 299)) (by simp [Event.code])
    exact ⟨es, ⟨hraises.events, hraises.evt⟩, hes⟩

/-- No condition of the evaluation is OVF, whose code is 0. -/
theorem EvaluationConditions.code_ne_zero {es : List Event} (h : EvaluationConditions es) {e : Event} (he : e ∈ es) :
    e.code ≠ 0 := by
  obtain rfl | ⟨e', rfl, hcode⟩ := h
  · exact absurd he List.not_mem_nil
  · rw [List.mem_singleton.mp he]
    exact fun h0 => absurd (h0 ▸ hcode) (by decide)

/-- Conditions other than OVF leave bit 0 of EVT (R35). -/
theorem Raises.evt_getLsbD_zero {es : List Event} {s t : State} (h : Raises es s t) (hes : ∀ e ∈ es, e.code ≠ 0) :
    t.evt.getLsbD 0 = s.evt.getLsbD 0 := by
  have hbit : (evtBits es).getLsbD 0 = false := by
    rw [evtBits_getLsbD, List.any_eq_false]
    exact fun e he => by simp [hes e he]
  rw [h.evt, BitVec.getLsbD_or, hbit, Bool.or_false]

/-! ### Chunk boundaries -/

/-- A chunk without the marker is appended to a buffer within the maximum (R131 to R133). -/
theorem fedBuffer_of_plain {c : List Byte} {s : State} (hmark : beginsWithMarker c = false)
    (hbuf : s.buf.length ≤ 320) : fedBuffer c s = s.buf ++ c := by
  apply if_neg
  rintro (h | h)
  · rw [← beginsWithMarker_iff, hmark] at h
    exact Bool.false_ne_true h
  · omega

/-- A buffer within the maximum raises no OVF (R131). -/
theorem fedState_of_buf_le {s : State} (h : s.buf.length ≤ 320) : fedState s = markFeed s := by
  simp [fedState, markFeed, Nat.not_lt.mpr h]

/-- An incomplete chunk fed to the empty buffer, then one without the marker, are as good as the two in one. -/
theorem feedChunk_feedChunk {c d : List Byte} {s : State} (hbuf : s.buf = []) (hshort : c.length < 300)
    (hmark : beginsWithMarker d = false) : feedChunk d (feedChunk c s) = feedChunk (c ++ d) s := by
  have hfirst : feedChunk c s = { markFeed s with buf := c } := by
    rw [feedChunk_of_short (by rwa [fedBuffer_of_buf_nil c hbuf]), fedBuffer_of_buf_nil c hbuf,
      fedState_of_buf_nil hbuf]
  have hroom : ({ markFeed s with buf := c } : State).buf.length ≤ 320 := by
    show c.length ≤ 320
    omega
  rw [hfirst, feedChunk_eq, feedChunk_eq, fedBuffer_of_plain hmark hroom, fedBuffer_of_buf_nil (c ++ d) hbuf,
    fedState_of_buf_le hroom, fedState_of_buf_nil hbuf]
  rfl

/-- Chunks of 300 bytes in all, none of those after the first empty or with the marker, are merged one by one into the
first (R141). -/
theorem runAll_feed_flatten {c : List Byte} {cs : List (List Byte)} {s : State} (hbuf : s.buf = [])
    (hlen : (c :: cs).flatten.length = 300) (hne : ∀ d ∈ cs, d ≠ [])
    (hmark : ∀ d ∈ cs, beginsWithMarker d = false) :
    runAll ((c :: cs).map Instr.feed) s = .next (feedChunk (c :: cs).flatten s) := by
  induction cs generalizing c with
  | nil => rw [List.flatten_singleton]; rfl
  | cons d ds ih =>
    obtain ⟨hd, hds⟩ := List.forall_mem_cons.mp hne
    obtain ⟨hdmark, hdsmark⟩ := List.forall_mem_cons.mp hmark
    have hmerge : (c :: d :: ds).flatten = ((c ++ d) :: ds).flatten := by
      simp only [List.flatten_cons, List.append_assoc]
    have hshort : c.length < 300 := by
      have hpos := List.length_pos_iff.mpr hd
      simp only [List.flatten_cons, List.length_append] at hlen
      omega
    calc runAll ((c :: d :: ds).map Instr.feed) s
        = runAll (ds.map Instr.feed) (feedChunk d (feedChunk c s)) := rfl
      _ = runAll (((c ++ d) :: ds).map Instr.feed) s := by rw [feedChunk_feedChunk hbuf hshort hdmark]; rfl
      _ = .next (feedChunk (c :: d :: ds).flatten s) := by rw [hmerge, ih (hmerge ▸ hlen) hds hdsmark]

/-! ### The statements -/

/-- Settles O13: the kept state is that after DISPATCH, which is the routine of the frame's kind, or VER, or UNK
(R150 to R152, R159). -/
theorem feedMatchDispatches : Obligations.FeedMatchDispatches := by
  unfold Obligations.FeedMatchDispatches
  intro c s hlen hck
  refine ⟨_, congrArg Host.Outcome.next (feedChunk_of_valid hlen hck), fun hproto => dispatch_of_proto_ne _ hproto,
    fun hproto => ⟨fun hkind => exec_frameInstr (k := .settings) hlen hkind hproto,
      fun hkind => exec_frameInstr (k := .cellinfo) hlen hkind hproto,
      fun hkind => exec_frameInstr (k := .deviceinfo) hlen hkind hproto,
      fun h1 h2 h3 => dispatch_of_unknown_kind hproto h1 h2 h3⟩⟩

/-- Settles O15: step 4 leaves an incomplete buffer and raises no OVF, and step 1 raises none within the maximum
(R131, R140). -/
theorem afterFeedAtRest : Obligations.AfterFeedAtRest := by
  unfold Obligations.AfterFeedAtRest
  intro c s
  obtain ⟨es, hraises, hes⟩ := feedChunk_raises c s
  have hall := (fedState_raises s).trans hraises
  refine ⟨feedChunk c s, _, exec_feed c s, feedChunk_buf_length_le c s, hall.events, fun hbuf => ?_⟩
  rw [if_neg (Nat.not_lt.mpr hbuf), List.nil_append] at hall ⊢
  exact ⟨fun n hn => hes.code_ne_zero hn rfl, hall.evt_getLsbD_zero fun e he => hes.code_ne_zero he⟩

/-- Settles O16: the chunks are merged into one, which is then fed (R141). -/
theorem chunkBoundariesDoNotMatter : Obligations.ChunkBoundariesDoNotMatter := by
  unfold Obligations.ChunkBoundariesDoNotMatter
  intro c cs s hbuf hlen hne hmark
  exact runAll_feed_flatten hbuf hlen (List.forall_mem_cons.mp hne).2 hmark

/-- Settles O11: the incomplete buffer is kept (R134). -/
theorem feedBelowThreeHundred : Obligations.FeedBelowThreeHundred := by
  unfold Obligations.FeedBelowThreeHundred
  intro c s hshort
  exact congrArg Host.Outcome.next (feedChunk_of_short hshort)

/-- Settles O12: the complete buffer with a wrong checksum is discarded with CSF (R136). -/
theorem feedMismatchDiscards : Obligations.FeedMismatchDiscards := by
  unfold Obligations.FeedMismatchDiscards
  intro c s hlen hck
  exact congrArg Host.Outcome.next (feedChunk_of_invalid hlen hck)

end Sys2Proof.Machine

/-! PROOFS. The frame kinds: which registers SETTINGS, CELLINFO and DEVICEINFO write, and with what
(42_frame_dispatch.md). -/

namespace Sys2Proof.Machine

/-! ### SETTINGS -/

/-- SETTINGS writes settings registers only (R153). -/
theorem decodeSettings_frame (f : List Byte) (s : State) :
    decodeSettings f s = { s with status := { s.status with st := (decodeSettings f s).status.st } } := by
  rw [decodeSettings_eq]

/-- After SETTINGS a register holds the field at its own offset, valid (R153). -/
theorem decodeSettings_get (f : List Byte) (s : State) (r : Setting) :
    (decodeSettings f s).status.st.get r = ⟨field32 f (s.params.off.get r), true⟩ := by
  rw [decodeSettings_eq]
  cases r <;> rfl

/-! ### CELLINFO -/

/-- A limited frame raises RLM (R155). -/
theorem decodeCellinfo_of_limited (f : List Byte) {s : State} (hlimited : limited s = true) :
    decodeCellinfo f s = raise (.rlm s.cellAge) s := if_pos hlimited

/-- A cell count above the capacity raises RNG (R157). -/
theorem decodeCellinfo_of_ncellMax_lt (f : List Byte) {s : State} (hlimited : ¬ limited s = true)
    (hcount : s.params.ncellMax < s.status.st.cellcnt.val.toNat) :
    decodeCellinfo f s = raise (.rng s.status.st.cellcnt.val) s := (if_neg hlimited).trans (if_pos hcount)

/-- A frame that is neither limited nor out of range is decoded (R156). -/
theorem decodeCellinfo_of_le_ncellMax (f : List Byte) {s : State} (hlimited : ¬ limited s = true)
    (hcount : s.status.st.cellcnt.val.toNat ≤ s.params.ncellMax) :
    decodeCellinfo f s = matchTag 2 (decodeCells f s.status.st.cellcnt.val.toNat (acceptCells s)) :=
  (if_neg hlimited).trans (if_neg (Nat.not_lt.mpr hcount))

/-! ### The statements -/

/-- Settles O20: the cell loop writes the cell file, the rate limiter restarts before it and the tag-clear rule comes
after it (R156, R160); every field lies inside the frame (R66). -/
theorem cellinfoDecodesCells : Obligations.CellinfoDecodesCells := by
  unfold Obligations.CellinfoDecodesCells
  intro f s hlen hcap hlimited hcount
  have hexec := (exec_cellinfo s hlen).trans
    (congrArg _ (decodeCellinfo_of_le_ncellMax f (mt (limited_iff s).mp hlimited) hcount))
  rw [matchTag_eq, decodeCells_eq] at hexec
  refine ⟨_, hexec, ?_, fun i hi => ⟨field16 f i, ?_, ?_⟩, fun i hi => ?_⟩
  · rw [decodeCells_length, acceptCells_status, hcap]
  · rw [decodeCells_getElem?, acceptCells_status, if_pos ⟨hi, by omega⟩]
  · have hfield := (fieldReadsStayInFrame s.params).2 i (by omega)
    exact field16_toNat f i (by omega)
  · rw [decodeCells_getElem?, acceptCells_status, if_neg fun h => Nat.not_lt.mpr hi h.1]

/-- Settles O19: each register holds its 32-bit field, which lies inside the frame (R63, R66, R153). -/
theorem settingsWritesEight : Obligations.SettingsWritesEight := by
  unfold Obligations.SettingsWritesEight
  intro f s hlen
  refine ⟨(decodeSettings f s).status.st, ?_, fun r => ?_⟩
  · rw [exec_settings s hlen, ← decodeSettings_frame]
  · have hoff := s.params.off_range r
    rw [decodeSettings_get]
    exact ⟨rfl, field32_toNat f _ (by omega)⟩

/-- Settles O21: such a frame only raises its condition (R155, R157). -/
theorem cellinfoWithoutDecode : Obligations.CellinfoWithoutDecode := by
  unfold Obligations.CellinfoWithoutDecode
  intro f s hlen
  rw [exec_cellinfo s hlen]
  refine ⟨fun hlimited => ?_, fun hlimited hcount => ?_⟩
  · rw [decodeCellinfo_of_limited f ((limited_iff s).mpr hlimited)]
    rfl
  · rw [decodeCellinfo_of_ncellMax_lt f (mt (limited_iff s).mp hlimited) hcount]
    rfl

/-- Settles O22: DEVICEINFO is the tag-clear rule for its tag (R158, R160). -/
theorem deviceinfoClearsItsTag : Obligations.DeviceinfoClearsItsTag := by
  unfold Obligations.DeviceinfoClearsItsTag
  intro _ s
  exact congrArg Host.Outcome.next (matchTag_eq 3 s)

end Sys2Proof.Machine

/-! PROOFS. The command encoder: the bytes of BUILD (R180), the register write (R181), what FEED makes of an outbound
frame (R185), and that every emitted frame is BUILD's (R184). -/

namespace Sys2Proof.Machine

/-! ### BUILD -/

/-- The last byte of BUILD's frame: the marker's bytes sum up to 0x7A (R180). -/
theorem byteAt_buildFrame_nineteen (a l : Byte) (v : Value) :
    byteAt (buildFrame a l v) 19 = 0x7A + a + l + v.v0 + v.v1 + v.v2 + v.v3 := by
  rw [buildFrame_eq]
  rfl

/-- An outbound frame does not begin with the inbound marker (R185). -/
theorem beginsWithMarker_buildFrame (a l : Byte) (v : Value) : beginsWithMarker (buildFrame a l v) = false := rfl

/-! ### Acceptance -/

theorem accept_of_holdV_false (act : State → State) {s : State} (h : s.holdV = false) : accept act s = act s :=
  (accept_eq act s).trans (if_pos h)

theorem accept_of_holdV_true (act : State → State) {s : State} (h : s.holdV = true) : accept act s = s :=
  (accept_eq act s).trans (if_neg (by simp [h]))

/-! ### The frames an operation emits -/

/-- Between `s` and `t` exactly one frame is emitted, and BUILD made it (R184). -/
def EmitsBuilt (s t : State) : Prop := ∃ a l v, t.out.frames = s.out.frames ++ [buildFrame a l v]

/-- LAUNCH's emission is BUILD's frame for the tag, or none for a tag that no request has (R203; log 15). -/
theorem emitRequest_cases (g : Tag) (s : State) :
    emitRequest g s = s ∨ ∃ a l v, emitRequest g s = emit (buildFrame a l v) s := by
  unfold emitRequest
  split_ifs
  · exact .inr ⟨_, _, _, rfl⟩
  · exact .inr ⟨_, _, _, rfl⟩
  · exact .inl rfl

theorem launch_frames (g : Tag) (s : State) :
    (launch g s).out.frames = s.out.frames ∨ EmitsBuilt s (launch g s) := by
  obtain ⟨u, hu, e⟩ : ∃ u : State, u.out.frames = s.out.frames ∧ launch g s = emitRequest g u :=
    ⟨_, by split <;> rfl, rfl⟩
  rw [e]
  obtain e | ⟨a, l, v, e⟩ := emitRequest_cases g u <;> rw [e]
  · exact .inl hu
  · exact .inr ⟨a, l, v, congrArg (· ++ _) hu⟩

theorem request_frames (g : Tag) (s : State) :
    (request g s).out.frames = s.out.frames ∨ EmitsBuilt s (request g s) := by
  obtain ⟨-, e⟩ | ⟨-, -, e⟩ := request_cases g s <;> rw [e]
  · exact launch_frames g s
  · exact .inl rfl

theorem command_frames (w : CmdWord) (s : State) :
    (command w s).out.frames = s.out.frames ∨ EmitsBuilt s (command w s) := by
  unfold command
  split_ifs
  · exact .inr ⟨w.addr, w.len, w.val, rfl⟩
  · exact request_frames 2 s
  · exact request_frames 3 s
  · exact .inl rfl

/-- A command emits only when it is accepted (R41, R184). -/
theorem accept_frames {act : State → State} {s : State}
    (h : (act s).out.frames = s.out.frames ∨ EmitsBuilt s (act s)) :
    (accept act s).out.frames = s.out.frames ∨ (s.holdV = false ∧ EmitsBuilt s (accept act s)) := by
  cases hv : s.holdV with
  | false =>
    rw [accept_of_holdV_false act hv]
    exact h.imp_right fun hbuilt => ⟨rfl, hbuilt⟩
  | true => exact .inl (by rw [accept_of_holdV_true act hv])

/-- TICK's step 2 neither holds nor emits (R206). -/
theorem tickTimeout_holdV_frames (s : State) :
    (tickTimeout s).holdV = s.holdV ∧ (tickTimeout s).out.frames = s.out.frames := by
  obtain ⟨-, e⟩ | ⟨-, -, e⟩ | ⟨-, -, e⟩ := tickTimeout_cases s <;> rw [e] <;> exact ⟨rfl, rfl⟩

/-- TICK's step 3 emits only the frame of a held request (R207). -/
theorem tickPoll_frames (s : State) :
    (tickPoll s).out.frames = s.out.frames ∨ (s.holdV = true ∧ EmitsBuilt s (tickPoll s)) := by
  obtain ⟨-, e⟩ | ⟨hv, -, e⟩ | ⟨-, -, -, e⟩ := tickPoll_cases s <;> rw [e]
  · exact .inl rfl
  · exact (launch_frames s.holdT (incWait s)).imp_right fun hbuilt => ⟨hv, hbuilt⟩
  · exact .inl rfl

theorem tickUnit_frames (s : State) :
    (tickUnit s).out.frames = s.out.frames ∨ (s.holdV = true ∧ EmitsBuilt s (tickUnit s)) := by
  have hpoll := tickPoll_frames (tickTimeout (tickCellAge s))
  obtain ⟨hhold, hframes⟩ := tickTimeout_holdV_frames (tickCellAge s)
  unfold EmitsBuilt at hpoll
  rw [hhold, hframes, tickCellAge_eq] at hpoll
  rw [tickUnit, tickCellAge_eq]
  exact hpoll

/-! ### The statements -/

/-- Settles O9: the encoder's commands emit when accepted, TICK for a held request, and no other operation emits
(R184). -/
theorem emittedFramesAreBuilt : Obligations.EmittedFramesAreBuilt := by
  unfold Obligations.EmittedFramesAreBuilt
  intro i s t h
  cases i with
  | settings f => exact .inl (by rw [next_of_guard h, decodeSettings_frame])
  | cellinfo f => exact .inl (by rw [next_of_guard h, decodeCellinfo_frame])
  | deviceinfo f => cases h; exact .inl (by rw [decodeDeviceinfo, matchTag_eq])
  | feed c => cases h; exact .inl (by rw [feedChunk_frame])
  | writeReg a l v =>
    cases h
    cases hv : s.holdV with
    | false => exact .inr ⟨a, l, v, by rw [accept_of_holdV_false _ hv]; rfl, .inr ⟨rfl, .inl rfl⟩⟩
    | true => exact .inl (by rw [accept_of_holdV_true _ hv])
  | reqCellInfo =>
    cases h
    exact (accept_frames (request_frames 2 s)).imp_right fun ⟨hv, a, l, v, e⟩ =>
      ⟨a, l, v, e, .inr ⟨hv, .inr (.inl rfl)⟩⟩
  | reqDeviceInfo =>
    cases h
    exact (accept_frames (request_frames 3 s)).imp_right fun ⟨hv, a, l, v, e⟩ =>
      ⟨a, l, v, e, .inr ⟨hv, .inr (.inr (.inl rfl))⟩⟩
  | cmd w =>
    cases h
    exact (accept_frames (command_frames w s)).imp_right fun ⟨hv, a, l, v, e⟩ =>
      ⟨a, l, v, e, .inr ⟨hv, .inr (.inr (.inr ⟨w, rfl⟩))⟩⟩
  | tick =>
    cases h
    exact (tickUnit_frames s).imp_right fun ⟨hv, a, l, v, e⟩ => ⟨a, l, v, e, .inl ⟨rfl, hv⟩⟩
  | statusRead o => cases h; cases o <;> exact .inl rfl
  | cfgWrite c => cases h; cases c <;> exact .inl rfl
  | checksum b n => exact .inl (by rw [next_of_guard h]; rfl)
  | sessionReset => cases h; exact .inl rfl
  | reset => cases h; exact .inl rfl
  | build a l v => cases h; exact .inl rfl

/-- Settles O4: the frame's last byte is its checksum, which is the printed sum (R120, R180). -/
theorem buildLaysOutFrame : Obligations.BuildLaysOutFrame := by
  unfold Obligations.BuildLaysOutFrame
  intro a l v s
  refine ⟨buildFrame a l v, rfl, rfl, (checksum_buildFrame a l v).symm, ?_⟩
  rw [byteAt_buildFrame_nineteen]
  simp [BitVec.toNat_add]

/-- Settles O5: accepted, WRITE_REG emits its frame; not accepted, it does nothing (R41, R181). -/
theorem writeRegEmitsItsFrame : Obligations.WriteRegEmitsItsFrame := by
  unfold Obligations.WriteRegEmitsItsFrame
  intro a l v s
  exact ⟨fun hv => congrArg Host.Outcome.next (accept_of_holdV_false (writeRegister a l v) hv),
    fun hv => congrArg Host.Outcome.next (accept_of_holdV_true (writeRegister a l v) hv)⟩

/-- Settles O10: without the inbound marker the frame is appended, and the buffer stays incomplete (R132 to R134,
R185). -/
theorem ownFrameIsPlainBytes : Obligations.OwnFrameIsPlainBytes := by
  unfold Obligations.OwnFrameIsPlainBytes
  intro a l v s hroom
  have hmax : s.buf.length ≤ 320 := by omega
  have hfed := fedBuffer_of_plain (beginsWithMarker_buildFrame a l v) hmax
  have hshort : (fedBuffer (buildFrame a l v) s).length < 300 := by
    rwa [hfed, List.length_append, buildFrame_length]
  rw [exec_feed, feedChunk_of_short hshort, hfed, fedState_of_buf_le hmax]
  rfl

end Sys2Proof.Machine

/-! PROOFS. The correlator: what a request does when it is accepted (R201 to R203), the two bounds of TICK (R204 to
R208), and the transitions of PEND (R209). -/

namespace Sys2Proof.Machine

/-! ### Requests -/

/-- LAUNCH ends every wait, so it does not see WAIT (R203). -/
theorem launch_incWait {g : Tag} (s : State) (hg : g = 2 ∨ g = 3) : launch g (incWait s) = launch g s := by
  rw [launch_eq g _ hg, launch_eq g _ hg]
  rfl

/-- LAUNCH with nothing pending abandons nothing (R203). -/
theorem launch_of_idle {g : Tag} {s : State} (hg : g = 2 ∨ g = 3) (hp : s.pend = 0) :
    launch g s = { s with
      pend := g, age := 0, holdV := false, holdT := 0, wait := 0
      out := { s.out with frames := s.out.frames ++ [requestBytes s.params g] } } := by
  rw [launch_eq g s hg, if_pos hp, if_pos hp]

/-- LAUNCH with a request pending abandons it, with WFO (R203, R238). -/
theorem launch_of_pending {g : Tag} {s : State} (hg : g = 2 ∨ g = 3) (hp : s.pend ≠ 0) :
    launch g s = { s with
      pend := g, age := 0, holdV := false, holdT := 0, wait := 0
      evt := s.evt ||| 0x40
      out := { s.out with
        frames := s.out.frames ++ [requestBytes s.params g]
        events := s.out.events ++ [.wfo s.pend] } } := by
  rw [launch_eq g s hg, if_neg hp, if_neg hp]

/-- An accepted request that need not wait is launched (R202). -/
theorem accept_request_of_launchesAtOnce (g : Tag) {s : State} (h : LaunchesAtOnce s) :
    accept (request g) s = launch g s :=
  (accept_of_holdV_false (request g) h.1).trans (if_pos h.2)

/-- An accepted request behind a pending one is held (R202). -/
theorem accept_request_of_pending (g : Tag) {s : State} (hv : s.holdV = false) (hp : s.pend ≠ 0)
    (hm : s.cfgTmo ≠ 0) : accept (request g) s = holdRequest g s :=
  (accept_of_holdV_false (request g) hv).trans (if_neg (not_or.mpr ⟨hp, hm⟩))

/-- The bytes of a cell-info request, whose checksum is 0x7A + 0x96 mod 256 (R182). -/
theorem requestBytes_two (p : Params) :
    requestBytes p 2 = [0xAA, 0x55, 0x90, 0xEB, 0x96, 0, 0, 0, 0, 0, 0, 0, 0, 0, 0, 0, 0, 0, 0, 0x10] := by
  simp [requestBytes]

/-- Settles O6: accepted, REQUEST(2) is LAUNCH(2) or a hold; not accepted, nothing (R41, R202). -/
theorem cellInfoRequest : Obligations.CellInfoRequest := by
  unfold Obligations.CellInfoRequest
  intro s
  have hlaunch := launch_eq 2 s (.inl rfl)
  rw [requestBytes_two] at hlaunch
  exact ⟨fun hv hp => congrArg Host.Outcome.next
      ((accept_request_of_launchesAtOnce 2 ⟨hv, hp⟩).trans hlaunch),
    fun hv hp hm => congrArg Host.Outcome.next (accept_request_of_pending 2 hv hp hm),
    fun hv => congrArg Host.Outcome.next (accept_of_holdV_true (request 2) hv)⟩

/-- Settles O7: accepted, REQUEST(3) is LAUNCH(3) or a hold; not accepted, nothing (R41, R202). -/
theorem deviceInfoRequest : Obligations.DeviceInfoRequest := by
  unfold Obligations.DeviceInfoRequest
  intro s
  exact ⟨fun hv hp => congrArg Host.Outcome.next
      ((accept_request_of_launchesAtOnce 3 ⟨hv, hp⟩).trans (launch_eq 3 s (.inr rfl))),
    fun hv hp hm => congrArg Host.Outcome.next (accept_request_of_pending 3 hv hp hm),
    fun hv => congrArg Host.Outcome.next (accept_of_holdV_true (request 3) hv)⟩

/-! ### The command word -/

/-- With `cmd_op` 1 CMD is REQUEST(2) (R201). -/
theorem command_of_op_one {w : CmdWord} (h : w.op = 1) : command w = request 2 := by
  funext s
  simp [command, h]

/-- With `cmd_op` 2 CMD is REQUEST(3) (R201). -/
theorem command_of_op_two {w : CmdWord} (h : w.op = 2) : command w = request 3 := by
  funext s
  simp [command, h]

/-- Without a request's `cmd_op` CMD presents at most a frame, so it leaves the correlator alone (R106, R181, R201). -/
theorem command_of_not_request {w : CmdWord} (s : State) (h1 : w.op ≠ 1) (h2 : w.op ≠ 2) :
    command w s = { s with out := { s.out with frames := (command w s).out.frames } } := by
  rw [command, if_neg h1, if_neg h2]
  split <;> rfl

/-- Settles O8: `cmd_op` selects the operation, and acceptance is the same for all (R41, R201). -/
theorem commandWordSelects : Obligations.CommandWordSelects := by
  unfold Obligations.CommandWordSelects
  intro w s
  refine ⟨fun hv => ⟨accept (command w) s, rfl, fun h => ?_, fun h => ?_, fun h => ?_, fun h => ?_⟩,
    fun hv => congrArg Host.Outcome.next (accept_of_holdV_true (command w) hv)⟩
  · have hcmd : command w = writeRegister w.addr w.len w.val := funext fun _ => if_pos h
    rw [hcmd]
    rfl
  · rw [command_of_op_one h]
    rfl
  · rw [command_of_op_two h]
    rfl
  · rw [accept_of_holdV_false _ hv]
    simp [command, h]

/-! ### One TICK -/

/-- A TICK ages the cell file, then its steps 2 and 3 follow (R204, R205). -/
theorem exec_tick_of {s u t : State} (htimeout : tickTimeout { s with cellAge := tickedCellAge s } = u)
    (hpoll : tickPoll u = t) : exec .tick s = .next t := by
  rw [← tickCellAge_eq] at htimeout
  rw [← hpoll, ← htimeout]
  rfl

/-- With nothing pending there is no timeout (R206). -/
theorem tickTimeout_of_idle {s : State} (hp : s.pend = 0) : tickTimeout s = s := if_pos hp

/-- Below its bound a pending request ages (R206). -/
theorem tickTimeout_of_lt {s : State} (hp : s.pend ≠ 0) (hlt : min 255 (s.age.toNat + 1) < s.cfgTmo.toNat) :
    tickTimeout s = { s with age := BitVec.ofNat 8 (min 255 (s.age.toNat + 1)) } := by
  obtain ⟨hidle, -⟩ | ⟨-, -, e⟩ | ⟨-, hle, -⟩ := tickTimeout_cases s
  · exact absurd hidle hp
  · exact e
  · exact absurd hlt (Nat.not_lt.mpr hle)

/-- At its bound a pending request is abandoned, with TMO (R206, R235). -/
theorem tickTimeout_of_le {s : State} (hp : s.pend ≠ 0) (hle : s.cfgTmo.toNat ≤ min 255 (s.age.toNat + 1)) :
    tickTimeout s = { s with
      pend := 0, age := 0, evt := s.evt ||| 0x08
      out := { s.out with events := s.out.events ++ [.tmo s.pend] } } := by
  obtain ⟨hidle, -⟩ | ⟨-, hlt, -⟩ | ⟨-, -, e⟩ := tickTimeout_cases s
  · exact absurd hidle hp
  · exact absurd hlt (Nat.not_lt.mpr hle)
  · exact e

/-- With nothing held there is nothing to poll (R207). -/
theorem tickPoll_of_free {s : State} (hv : s.holdV = false) : tickPoll s = s :=
  if_neg (ne_true_of_eq_false hv)

/-- A held request is launched when nothing is pending or its wait is over (R207). -/
theorem tickPoll_of_launch {s : State} (hv : s.holdV = true) (hg : s.holdT = 2 ∨ s.holdT = 3)
    (h : s.pend = 0 ∨ s.cfgTmo.toNat ≤ min 255 (s.wait.toNat + 1)) : tickPoll s = launch s.holdT s := by
  obtain ⟨hfree, -⟩ | ⟨-, -, e⟩ | ⟨-, hp, hlt, -⟩ := tickPoll_cases s
  · exact absurd hv (ne_true_of_eq_false hfree)
  · exact e.trans (launch_incWait s hg)
  · exact absurd h (not_or.mpr ⟨hp, Nat.not_le.mpr hlt⟩)

/-- A held request keeps waiting behind a pending one (R207). -/
theorem tickPoll_of_lt {s : State} (hv : s.holdV = true) (hp : s.pend ≠ 0)
    (hlt : min 255 (s.wait.toNat + 1) < s.cfgTmo.toNat) :
    tickPoll s = { s with wait := BitVec.ofNat 8 (min 255 (s.wait.toNat + 1)) } := by
  obtain ⟨hfree, -⟩ | ⟨-, h, -⟩ | ⟨-, -, -, e⟩ := tickPoll_cases s
  · exact absurd hv (ne_true_of_eq_false hfree)
  · exact absurd h (not_or.mpr ⟨hp, Nat.not_le.mpr hlt⟩)
  · exact e

/-- Settles O25: step 2 by its three cases, and step 3 polls nothing (R204 to R206). -/
theorem tickWithoutHeldRequest : Obligations.TickWithoutHeldRequest := by
  unfold Obligations.TickWithoutHeldRequest
  intro s hv
  exact ⟨fun hp => exec_tick_of (tickTimeout_of_idle hp) (tickPoll_of_free hv),
    fun hp hlt => exec_tick_of (tickTimeout_of_lt hp hlt) (tickPoll_of_free hv),
    fun hp hle => exec_tick_of (tickTimeout_of_le hp hle) (tickPoll_of_free hv)⟩

/-- Settles O26: step 2 by its three cases, then step 3 launches or keeps waiting (R204, R206, R207). -/
theorem tickPollsHeldRequest : Obligations.TickPollsHeldRequest := by
  unfold Obligations.TickPollsHeldRequest
  intro s hv hg
  refine ⟨fun hp => ?_, fun hp hle => ?_, fun hp hlt hwait => ?_, fun hp hlt hwait => ?_⟩
  · exact exec_tick_of (tickTimeout_of_idle hp)
      (Eq.trans (tickPoll_of_launch hv hg (.inl hp)) (launch_of_idle hg hp))
  · exact exec_tick_of (tickTimeout_of_le hp hle)
      (Eq.trans (tickPoll_of_launch hv hg (.inl rfl)) (launch_of_idle hg rfl))
  · exact exec_tick_of (tickTimeout_of_lt hp hlt)
      (Eq.trans (tickPoll_of_launch hv hg (.inr hwait)) (launch_of_pending hg hp))
  · exact exec_tick_of (tickTimeout_of_lt hp hlt) (tickPoll_of_lt hv hp hwait)

/-! ### Several TICKs -/

/-- Instructions that all go on can be followed by others. -/
theorem runAll_append {is js : List Instr} {s t : State} (h : runAll is s = .next t) :
    runAll (is ++ js) s = runAll js t := by
  induction is generalizing s with
  | nil => cases h; rfl
  | cons i is ih =>
    simp only [List.cons_append, runAll] at h ⊢
    cases e : exec i s with
    | next u => rw [e] at h; exact ih h
    | fault r => rw [e] at h; cases h
    | refused r => rw [e] at h; cases h

theorem ticks_one {s t : State} (h : exec .tick s = .next t) : ticks 1 s = .next t := by
  simp [ticks, runAll, h]

theorem ticks_add {m n : Nat} {s t : State} (h : ticks m s = .next t) : ticks (m + n) s = ticks n t := by
  rw [ticks, List.replicate_add, runAll_append h, ticks]

/-- A saturating counter below a byte's bound has not saturated (R204, R206). -/
theorem min_add_one_of_lt {a : Nat} {m : Byte} (h : a + 1 < m.toNat) : min 255 (a + 1) = a + 1 := by
  have := m.isLt
  omega

/-- While a pending request stays below its bound and nothing is held, TICKs only run the two ages (R205, R206). -/
theorem ticks_below_bound {n : Nat} {s : State} (hp : s.pend ≠ 0) (hv : s.holdV = false)
    (hn : n = 0 ∨ s.age.toNat + n < s.cfgTmo.toNat) :
    ∃ c a, ticks n s = .next { s with cellAge := c, age := a } ∧ a.toNat = s.age.toNat + n := by
  induction n with
  | zero => exact ⟨s.cellAge, s.age, rfl, rfl⟩
  | succ n ih =>
    have hbound : s.age.toNat + n + 1 < s.cfgTmo.toNat := by omega
    obtain ⟨c, a, hticks, hage⟩ := ih (.inr (by omega))
    have hsat : min 255 (a.toNat + 1) = s.age.toNat + n + 1 := by
      rw [hage, min_add_one_of_lt hbound]
    obtain ⟨-, hstep, -⟩ := tickWithoutHeldRequest { s with cellAge := c, age := a } hv
    refine ⟨_, _, (ticks_add hticks).trans (ticks_one (hstep hp ?_)), ?_⟩
    · exact hsat ▸ hbound
    · have := s.cfgTmo.isLt
      rw [hsat, BitVec.toNat_ofNat, Nat.mod_eq_of_lt (by omega), Nat.add_assoc]

/-- Settles O27: below the bound TICKs only age the request, and the next one reaches the bound (R206). -/
theorem timeoutAtExactlyTheBound : Obligations.TimeoutAtExactlyTheBound := by
  unfold Obligations.TimeoutAtExactlyTheBound
  intro s hp hage hv
  have hzero : s.age.toNat = 0 := by rw [hage]; rfl
  have hbefore (j : Nat) (hj : j < max 1 s.cfgTmo.toNat) :
      ∃ c a, ticks j s = .next { s with cellAge := c, age := a } ∧ a.toNat = j := by
    obtain ⟨c, a, hticks, ha⟩ := ticks_below_bound (n := j) hp hv (by omega)
    exact ⟨c, a, hticks, by omega⟩
  constructor
  · intro j hj
    obtain ⟨c, a, hticks, ha⟩ := hbefore j hj
    exact ⟨_, hticks, rfl, ha, rfl, rfl⟩
  · obtain ⟨m, hm⟩ : ∃ m, max 1 s.cfgTmo.toNat = m + 1 := ⟨max 1 s.cfgTmo.toNat - 1, by omega⟩
    obtain ⟨c, a, hticks, ha⟩ := hbefore m (by omega)
    obtain ⟨-, -, hfire⟩ := tickWithoutHeldRequest { s with cellAge := c, age := a } hv
    have hle : s.cfgTmo.toNat ≤ min 255 (a.toNat + 1) := by
      have := s.cfgTmo.isLt
      omega
    rw [hm]
    exact ⟨_, (ticks_add hticks).trans (ticks_one (hfire hp hle)), rfl, rfl, rfl, rfl⟩

/-! ### The held request is never launched by force -/

/-- `t` comes from `s` by the launch of the request held in `s`, with the conditions `es`, of which none is WFO
(R207, R208). -/
structure HeldLaunched (es : List Event) (s t : State) : Prop where
  holdV : t.holdV = false
  holdT : t.holdT = 0
  wait : t.wait = 0
  pend : t.pend = s.holdT
  age : t.age = 0
  frames : t.out.frames = s.out.frames ++ [requestBytes s.params s.holdT]
  events : t.out.events = s.out.events ++ es
  conditions : es = [] ∨ es = [.tmo s.pend]

/-- At rest a TICK launches the held request when it finds the correlator Idle, and else both counters run: since WAIT
is at most AGE, the third clause of `TickPollsHeldRequest` does not arise (R208). -/
theorem exec_tick_held_cases {s : State} (h : s.Inv) (hv : s.holdV = true) :
    (IdleAfterTimeout s ∧ ∃ t es, exec .tick s = .next t ∧ HeldLaunched es s t)
    ∨ (¬ IdleAfterTimeout s
        ∧ exec .tick s = .next { s with
            cellAge := tickedCellAge s
            age := BitVec.ofNat 8 (min 255 (s.age.toNat + 1))
            wait := BitVec.ofNat 8 (min 255 (s.wait.toNat + 1)) }) := by
  obtain ⟨hidle, htimeout, -, hwait⟩ := tickPollsHeldRequest s hv (h.holdTag hv)
  by_cases hp : s.pend = 0
  · exact .inl ⟨.inl hp, _, [], hidle hp, ⟨rfl, rfl, rfl, rfl, rfl, rfl, (List.append_nil _).symm, .inl rfl⟩⟩
  by_cases hbound : s.cfgTmo.toNat ≤ min 255 (s.age.toNat + 1)
  · exact .inl ⟨.inr hbound, _, [.tmo s.pend], htimeout hp hbound, ⟨rfl, rfl, rfl, rfl, rfl, rfl, rfl, .inr rfl⟩⟩
  · have hle := h.waitLeAge hp hv
    exact .inr ⟨not_or.mpr ⟨hp, hbound⟩, hwait hp (by omega) (by omega)⟩

/-- A held request is launched within its bound, by induction on the TICKs its wait has left (R207, R208). -/
theorem ticks_launch_held {s : State} (h : s.Inv) (hv : s.holdV = true) :
    ∃ n t es, 1 ≤ n ∧ n ≤ max 1 (s.cfgTmo.toNat - s.wait.toNat) ∧ ticks n s = .next t ∧ HeldLaunched es s t := by
  obtain ⟨-, t, es, htick, hlaunched⟩ | ⟨hwaits, htick⟩ := exec_tick_held_cases h hv
  · exact ⟨1, t, es, le_rfl, le_max_left _ _, ticks_one htick, hlaunched⟩
  · obtain ⟨hp, hbound⟩ := not_or.mp hwaits
    have hle := h.waitLeAge hp hv
    have htmo := s.cfgTmo.isLt
    have hwait : (BitVec.ofNat 8 (min 255 (s.wait.toNat + 1))).toNat = s.wait.toNat + 1 := by
      rw [BitVec.toNat_ofNat]
      omega
    obtain ⟨n, t, es, -, hn, hticks, hlaunched⟩ := ticks_launch_held (exec_decodePort_inv (e := .tick) h htick) hv
    have hn' : n ≤ max 1 (s.cfgTmo.toNat - (s.wait.toNat + 1)) := hwait ▸ hn
    exact ⟨1 + n, t, es, Nat.le_add_right 1 n, by omega, (ticks_add (ticks_one htick)).trans hticks,
      { hlaunched with }⟩
termination_by s.cfgTmo.toNat - s.wait.toNat
decreasing_by
  show s.cfgTmo.toNat - (BitVec.ofNat 8 (min 255 (s.wait.toNat + 1))).toNat < s.cfgTmo.toNat - s.wait.toNat
  omega

/-- Settles O28: the wait has at most CFG_TMO - WAIT TICKs left (R207, R208). -/
theorem heldRequestLaunchesWithinBound : Obligations.HeldRequestLaunchesWithinBound := by
  unfold Obligations.HeldRequestLaunchesWithinBound
  intro s h hv
  obtain ⟨n, t, es, hpos, hn, hticks, hl⟩ := ticks_launch_held h hv
  exact ⟨n, t, es, hpos, hn, hticks, hl.holdV, hl.holdT, hl.wait, hl.pend, hl.age, hl.frames, hl.events,
    hl.conditions⟩

/-! ### Who raises WFO -/

/-- Between `s` and `t` conditions are raised, none of which is WFO (R231). -/
def RaisesNoWfo (s t : State) : Prop := ∃ es, t.out.events = s.out.events ++ es ∧ ∀ g, Event.wfo g ∉ es

/-- Between `s` and `t` a request is launched over the pending one, under a bound of 0 (R202, R238). -/
def LaunchesOverPending (s t : State) : Prop :=
  s.cfgTmo = 0 ∧ s.pend ≠ 0 ∧ t.out.events = s.out.events ++ [.wfo s.pend]

/-- An operation that presents no condition raises no WFO. -/
theorem raisesNoWfo_of_events_eq {s t : State} (h : t.out.events = s.out.events) : RaisesNoWfo s t :=
  ⟨[], h.trans (List.append_nil _).symm, fun _ => List.not_mem_nil⟩

theorem RaisesNoWfo.trans {s t u : State} (hst : RaisesNoWfo s t) (htu : RaisesNoWfo t u) : RaisesNoWfo s u := by
  obtain ⟨es, hes, hno⟩ := hst
  obtain ⟨fs, hfs, hno'⟩ := htu
  exact ⟨es ++ fs, by rw [hfs, hes, List.append_assoc], fun g hg =>
    (List.mem_append.mp hg).elim (hno g) (hno' g)⟩

/-- The evaluation of a buffer raises no WFO, whose code is 6 (R242). -/
theorem Raises.raisesNoWfo {es : List Event} {s t : State} (h : Raises es s t) (hes : EvaluationConditions es) :
    RaisesNoWfo s t := by
  refine ⟨es, h.events, fun g hg => ?_⟩
  obtain rfl | ⟨e, rfl, hcode⟩ := hes
  · exact absurd hg List.not_mem_nil
  · rw [← List.mem_singleton.mp hg] at hcode
    exact absurd hcode (by simp [Event.code])

theorem feedChunk_raisesNoWfo (c : List Byte) (s : State) : RaisesNoWfo s (feedChunk c s) := by
  obtain ⟨es, hraises, hes⟩ := feedChunk_raises c s
  have hovf : RaisesNoWfo s (fedState s) := ⟨_, (fedState_raises s).events, fun g => by split <;> simp⟩
  exact hovf.trans (hraises.raisesNoWfo hes)

theorem HeldLaunched.raisesNoWfo {es : List Event} {s t : State} (h : HeldLaunched es s t) : RaisesNoWfo s t := by
  refine ⟨es, h.events, fun g => ?_⟩
  obtain rfl | rfl := h.conditions <;> simp

/-- At rest TICK raises TMO or nothing (R208, R242). -/
theorem exec_tick_raisesNoWfo {s t : State} (h : s.Inv) (htick : exec .tick s = .next t) : RaisesNoWfo s t := by
  cases hv : s.holdV with
  | true =>
    obtain ⟨-, u, es, e, hlaunched⟩ | ⟨-, e⟩ := exec_tick_held_cases h hv <;> cases htick.symm.trans e
    · exact hlaunched.raisesNoWfo
    · exact raisesNoWfo_of_events_eq rfl
  | false =>
    obtain ⟨hidle, hages, hfires⟩ := tickWithoutHeldRequest s hv
    by_cases hp : s.pend = 0
    · cases htick.symm.trans (hidle hp)
      exact raisesNoWfo_of_events_eq rfl
    by_cases hbound : s.cfgTmo.toNat ≤ min 255 (s.age.toNat + 1)
    · cases htick.symm.trans (hfires hp hbound)
      exact ⟨[.tmo s.pend], rfl, by simp⟩
    · cases htick.symm.trans (hages hp (Nat.not_le.mp hbound))
      exact raisesNoWfo_of_events_eq rfl

/-- REQUEST raises WFO only under a bound of 0 (R202, R203). -/
theorem request_wfo {g : Tag} (s : State) (hg : g = 2 ∨ g = 3) :
    RaisesNoWfo s (request g s) ∨ LaunchesOverPending s (request g s) := by
  obtain ⟨hnow, e⟩ | ⟨-, -, e⟩ := request_cases g s <;> rw [e]
  · by_cases hp : s.pend = 0
    · rw [launch_of_idle hg hp]
      exact .inl (raisesNoWfo_of_events_eq rfl)
    · rw [launch_of_pending hg hp]
      exact .inr ⟨hnow.resolve_left hp, hp, rfl⟩
  · exact .inl (raisesNoWfo_of_events_eq rfl)

theorem command_wfo (w : CmdWord) (s : State) :
    RaisesNoWfo s (command w s) ∨ LaunchesOverPending s (command w s) := by
  by_cases h1 : w.op = 1
  · rw [command_of_op_one h1]
    exact request_wfo s (.inl rfl)
  by_cases h2 : w.op = 2
  · rw [command_of_op_two h2]
    exact request_wfo s (.inr rfl)
  · rw [command_of_not_request s h1 h2]
    exact .inl (raisesNoWfo_of_events_eq rfl)

/-- A command raises WFO only when it is accepted (R41). -/
theorem accept_wfo {act : State → State} {s : State}
    (h : RaisesNoWfo s (act s) ∨ LaunchesOverPending s (act s)) :
    RaisesNoWfo s (accept act s) ∨ (s.holdV = false ∧ LaunchesOverPending s (accept act s)) := by
  cases hv : s.holdV with
  | false =>
    rw [accept_of_holdV_false act hv]
    exact h.imp_right fun hover => ⟨rfl, hover⟩
  | true =>
    rw [accept_of_holdV_true act hv]
    exact .inl (raisesNoWfo_of_events_eq rfl)

/-- At rest an operation raises no WFO, or it is an accepted command that launches over the pending request (R208,
R242). -/
theorem exec_wfo {i : Instr} {s t : State} (h : s.Inv) (hexec : exec i s = .next t) :
    RaisesNoWfo s t
    ∨ ((i = .reqCellInfo ∨ i = .reqDeviceInfo ∨ ∃ w, i = .cmd w) ∧ s.holdV = false ∧ LaunchesOverPending s t) := by
  cases i with
  | settings f => exact .inl (raisesNoWfo_of_events_eq (by rw [next_of_guard hexec, decodeSettings_frame]))
  | cellinfo f =>
    obtain ⟨es, hraises, hes⟩ := decodeCellinfo_raises f s
    exact .inl (next_of_guard hexec ▸ hraises.raisesNoWfo hes)
  | deviceinfo f => cases hexec; exact .inl ((raises_matchTag 3 s).raisesNoWfo (.inl rfl))
  | feed c => cases hexec; exact .inl (feedChunk_raisesNoWfo c s)
  | tick => exact .inl (exec_tick_raisesNoWfo h hexec)
  | writeReg a l v =>
    cases hexec
    exact .inl (raisesNoWfo_of_events_eq (by rw [accept_eq]; split <;> rfl))
  | reqCellInfo =>
    cases hexec
    exact (accept_wfo (request_wfo s (.inl rfl))).imp_right fun hover => ⟨.inl rfl, hover⟩
  | reqDeviceInfo =>
    cases hexec
    exact (accept_wfo (request_wfo s (.inr rfl))).imp_right fun hover => ⟨.inr (.inl rfl), hover⟩
  | cmd w =>
    cases hexec
    exact (accept_wfo (command_wfo w s)).imp_right fun hover => ⟨.inr (.inr ⟨w, rfl⟩), hover⟩
  | statusRead o => cases hexec; cases o <;> exact .inl (raisesNoWfo_of_events_eq rfl)
  | cfgWrite c => cases hexec; cases c <;> exact .inl (raisesNoWfo_of_events_eq rfl)
  | checksum b n => rw [next_of_guard hexec]; exact .inl (raisesNoWfo_of_events_eq rfl)
  | sessionReset => cases hexec; exact .inl (raisesNoWfo_of_events_eq rfl)
  | reset => cases hexec; exact .inl (raisesNoWfo_of_events_eq rfl)
  | build a l v => cases hexec; exact .inl (raisesNoWfo_of_events_eq rfl)

/-- Settles O29: the conditions an operation raises are the events it appends (R208, R242). -/
theorem wfoOnlyWithZeroBound : Obligations.WfoOnlyWithZeroBound := by
  unfold Obligations.WfoOnlyWithZeroBound
  intro i s t es g h hexec hevents hmem
  obtain ⟨fs, hfs, hno⟩ | ⟨hi, hv, hzero, hp, hover⟩ := exec_wfo h hexec
  · have hsame : es = fs := List.append_cancel_left (hevents.symm.trans hfs)
    exact absurd (hsame ▸ hmem) (hno g)
  · have hsame : es = [.wfo s.pend] := List.append_cancel_left (hevents.symm.trans hover)
    have hg : g = s.pend := by simpa [hsame] using hmem
    exact ⟨hzero, hv, hg.symm, hg ▸ hp, hi⟩

/-! ### The transitions of PEND -/

/-- At most one row applies (R209). -/
theorem PendRow.unique {i : Instr} {s : State} {p q : Tag} (hp : PendRow i s p) (hq : PendRow i s q) : p = q := by
  cases hp <;> cases hq
  case cellInfoCmd.deviceInfoCmd hone _ htwo _ => exact absurd (hone.symm.trans htwo) (by decide)
  case deviceInfoCmd.cellInfoCmd htwo _ hone _ => exact absurd (hone.symm.trans htwo) (by decide)
  case heldLaunch.timeout hheld _ hfree _ _ => exact absurd (hheld.symm.trans hfree) (by decide)
  case timeout.heldLaunch hfree _ _ hheld _ => exact absurd (hheld.symm.trans hfree) (by decide)
  all_goals rfl

/-- From `s` to `t` PEND goes by a row of instruction `i`, or no row applies and it stays (R209). -/
def PendByRow (i : Instr) (s t : State) : Prop := PendRow i s t.pend ∨ (t.pend = s.pend ∧ ∀ p, ¬ PendRow i s p)

/-- The routine of the frame `f` would clear the pending tag: decoding is on, the kind byte is the tag, and a CELLINFO
frame is decoded (R151, R156, R158, R160). -/
def ClearsTag (f : List Byte) (s : State) : Prop :=
  s.cfgProto = s.params.protoImpl
    ∧ ((byteAt f 4 = 2 ∧ s.pend = 2 ∧ AcceptsCells s) ∨ (byteAt f 4 = 3 ∧ s.pend = 3))

/-- A decoded CELLINFO frame clears tag 2, and nothing else does (R155 to R157, R160). -/
theorem decodeCellinfo_pend (f : List Byte) (s : State) :
    (s.pend = 2 ∧ AcceptsCells s ∧ (decodeCellinfo f s).pend = 0)
    ∨ (¬ (s.pend = 2 ∧ AcceptsCells s) ∧ (decodeCellinfo f s).pend = s.pend) := by
  obtain ⟨hlimited, e⟩ | ⟨-, hrange, e⟩ | ⟨hfree, hrange, e⟩ := decodeCellinfo_cases f s <;> rw [e]
  · exact .inr ⟨fun ⟨_, hfree, _⟩ => hfree ((limited_iff s).mp hlimited), rfl⟩
  · exact .inr ⟨fun ⟨_, _, hcount⟩ => absurd hcount (Nat.not_le.mpr hrange), rfl⟩
  · have haccepts : AcceptsCells s := ⟨mt (limited_iff s).mpr (ne_true_of_eq_false hfree), hrange⟩
    obtain ⟨hcells, -⟩ := decodeCells_tag f s.status.st.cellcnt.val.toNat (acceptCells s)
    rw [acceptCells_pend] at hcells
    rw [matchTag_eq, hcells]
    by_cases hp : s.pend = 2
    · exact .inl ⟨hp, haccepts, if_pos hp⟩
    · exact .inr ⟨fun h => hp h.1, if_neg hp⟩

/-- DISPATCH clears the tag exactly for a frame that clears it (R151, R152, R160). -/
theorem dispatch_pend (f : List Byte) (s : State) :
    (ClearsTag f s ∧ (dispatch f s).pend = 0) ∨ (¬ ClearsTag f s ∧ (dispatch f s).pend = s.pend) := by
  obtain ⟨hproto, e⟩ | ⟨-, hk, e⟩ | ⟨hproto, hk, e⟩ | ⟨hproto, hk, e⟩ | ⟨-, -, h2, h3, e⟩ := dispatch_cases f s <;>
    rw [e]
  · exact .inr ⟨fun h => hproto h.1, rfl⟩
  · exact .inr ⟨by simp [ClearsTag, hk], rfl⟩
  · obtain ⟨hp, haccepts, hzero⟩ | ⟨hnot, hkept⟩ := decodeCellinfo_pend f s
    · exact .inl ⟨⟨hproto, .inl ⟨hk, hp, haccepts⟩⟩, hzero⟩
    · exact .inr ⟨by simpa [ClearsTag, hk] using fun _ => not_and.mp hnot, hkept⟩
  · obtain ⟨hp, e⟩ | ⟨hp, e⟩ := matchTag_cases 3 s <;> rw [decodeDeviceinfo, e]
    · exact .inl ⟨⟨hproto, .inr ⟨hk, hp⟩⟩, rfl⟩
    · refine .inr ⟨?_, rfl⟩
      rintro ⟨-, ⟨hk', -⟩ | ⟨-, hp'⟩⟩
      · exact absurd (hk.symm.trans hk') (by decide)
      · exact hp hp'
  · refine .inr ⟨?_, rfl⟩
    rintro ⟨-, ⟨hk, -⟩ | ⟨hk, -⟩⟩
    · exact h2 hk
    · exact h3 hk

/-- A FEED has a row exactly when the buffer it evaluates is complete, valid and clears the tag (R134, R135, R209). -/
theorem pendRow_feed_iff {c : List Byte} {s : State} {p : Tag} :
    PendRow (.feed c) s p
      ↔ p = 0 ∧ 300 ≤ (fedBuffer c s).length ∧ checksum (fedBuffer c s) 299 = byteAt (fedBuffer c s) 299
        ∧ ClearsTag (fedBuffer c s) s := by
  constructor
  · intro hrow
    cases hrow with
    | cellInfoFed _ _ hc hp haccepts =>
      obtain ⟨hlen, hck, hproto, hk⟩ := hc
      exact ⟨rfl, hlen, hck, hproto, .inl ⟨hk, hp, haccepts⟩⟩
    | deviceInfoFed _ _ hc hp =>
      obtain ⟨hlen, hck, hproto, hk⟩ := hc
      exact ⟨rfl, hlen, hck, hproto, .inr ⟨hk, hp⟩⟩
  · rintro ⟨rfl, hlen, hck, hproto, ⟨hk, hp, haccepts⟩ | ⟨hk, hp⟩⟩
    · exact .cellInfoFed s c ⟨hlen, hck, hproto, hk⟩ hp haccepts
    · exact .deviceInfoFed s c ⟨hlen, hck, hproto, hk⟩ hp

theorem feedChunk_pendByRow (c : List Byte) (s : State) : PendByRow (.feed c) s (feedChunk c s) := by
  unfold PendByRow
  simp only [pendRow_feed_iff]
  obtain ⟨hshort, e⟩ | ⟨hlen, hck, e⟩ | ⟨-, hbad, e⟩ := feedChunk_cases c s <;> rw [e]
  · exact .inr ⟨rfl, fun _ ⟨_, hlen, _⟩ => absurd hlen (Nat.not_le.mpr hshort)⟩
  · obtain ⟨hclears, hzero⟩ | ⟨hnot, hkept⟩ :=
      dispatch_pend (fedBuffer c s) { fedState s with buf := fedBuffer c s }
    · exact .inl ⟨hzero, hlen, hck, hclears⟩
    · exact .inr ⟨hkept, fun _ ⟨_, _, _, hclears⟩ => hnot hclears⟩
  · exact .inr ⟨rfl, fun _ ⟨_, _, hck, _⟩ => hbad hck⟩

theorem decodeCellinfo_pendByRow {f : List Byte} (s : State) (hlen : 300 ≤ f.length) :
    PendByRow (.cellinfo f) s (decodeCellinfo f s) := by
  obtain ⟨hp, haccepts, hzero⟩ | ⟨hnot, hkept⟩ := decodeCellinfo_pend f s
  · exact .inl (hzero ▸ .cellInfoDecoded s f hlen hp haccepts)
  · refine .inr ⟨hkept, fun p hrow => ?_⟩
    cases hrow with
    | cellInfoDecoded _ _ _ hp haccepts => exact hnot ⟨hp, haccepts⟩

theorem decodeDeviceinfo_pendByRow (f : List Byte) (s : State) :
    PendByRow (.deviceinfo f) s (decodeDeviceinfo s) := by
  obtain ⟨hp, e⟩ | ⟨hp, e⟩ := matchTag_cases 3 s <;> rw [decodeDeviceinfo, e]
  · exact .inl (.deviceInfoDecoded s f hp)
  · refine .inr ⟨rfl, fun p hrow => ?_⟩
    cases hrow with
    | deviceInfoDecoded _ _ hp' => exact hp hp'

/-- A request at the port sets its tag exactly when it is accepted and need not wait (R201 to R203). -/
theorem accept_request_pend (g : Tag) (s : State) :
    (LaunchesAtOnce s ∧ (accept (request g) s).pend = g)
    ∨ (¬ LaunchesAtOnce s ∧ (accept (request g) s).pend = s.pend) := by
  by_cases h : LaunchesAtOnce s
  · exact .inl ⟨h, by rw [accept_request_of_launchesAtOnce g h, launch_frame]⟩
  refine .inr ⟨h, ?_⟩
  cases hv : s.holdV with
  | true => rw [accept_of_holdV_true _ hv]
  | false =>
    obtain ⟨hp, hm⟩ := not_or.mp fun hnow => h ⟨hv, hnow⟩
    rw [accept_request_of_pending g hv hp hm, holdRequest_pend]

/-- An instruction that means REQUEST(g), and whose only row is its launch, takes it or leaves PEND (R202, R209). -/
theorem accept_request_pendByRow {i : Instr} {g : Tag} {s : State} (hrow : LaunchesAtOnce s → PendRow i s g)
    (hnot : ∀ p, PendRow i s p → LaunchesAtOnce s) : PendByRow i s (accept (request g) s) := by
  obtain ⟨hnow, hset⟩ | ⟨hwaits, hkept⟩ := accept_request_pend g s
  · exact .inl (by rw [hset]; exact hrow hnow)
  · exact .inr ⟨hkept, fun p h => hwaits (hnot p h)⟩

theorem accept_command_pendByRow (w : CmdWord) (s : State) : PendByRow (.cmd w) s (accept (command w) s) := by
  have hnow (p : Tag) (h : PendRow (.cmd w) s p) : LaunchesAtOnce s := by
    cases h <;> assumption
  by_cases h1 : w.op = 1
  · rw [command_of_op_one h1]
    exact accept_request_pendByRow (fun h => .cellInfoCmd s w h h1) hnow
  by_cases h2 : w.op = 2
  · rw [command_of_op_two h2]
    exact accept_request_pendByRow (fun h => .deviceInfoCmd s w h h2) hnow
  · refine .inr ⟨?_, fun p h => ?_⟩
    · rw [accept_eq, command_of_not_request s h1 h2]
      split <;> rfl
    · cases h <;> contradiction

/-- At rest TICK launches the held request, or abandons the pending one, or leaves PEND (R206 to R208). -/
theorem exec_tick_pendByRow {s t : State} (h : s.Inv) (htick : exec .tick s = .next t) : PendByRow .tick s t := by
  cases hv : s.holdV with
  | true =>
    obtain ⟨hidle, u, es, e, hlaunched⟩ | ⟨hwaits, e⟩ := exec_tick_held_cases h hv <;> cases htick.symm.trans e
    · exact .inl (hlaunched.pend ▸ .heldLaunch s hv hidle)
    · refine .inr ⟨rfl, fun p hrow => ?_⟩
      cases hrow <;> contradiction
  | false =>
    obtain ⟨hidle, hages, hfires⟩ := tickWithoutHeldRequest s hv
    have hheld : ¬ s.holdV = true := ne_true_of_eq_false hv
    by_cases hp : s.pend = 0
    · cases htick.symm.trans (hidle hp)
      refine .inr ⟨rfl, fun p hrow => ?_⟩
      cases hrow <;> contradiction
    by_cases hbound : s.cfgTmo.toNat ≤ min 255 (s.age.toNat + 1)
    · cases htick.symm.trans (hfires hp hbound)
      exact .inl (.timeout s hv hp (.inr hbound))
    · cases htick.symm.trans (hages hp (Nat.not_le.mp hbound))
      have hwaits : ¬ IdleAfterTimeout s := not_or.mpr ⟨hp, hbound⟩
      refine .inr ⟨rfl, fun p hrow => ?_⟩
      cases hrow <;> contradiction

/-- At rest every instruction moves PEND by its row, or has no row and leaves it (R209). -/
theorem exec_pendByRow {i : Instr} {s t : State} (h : s.Inv) (hexec : exec i s = .next t) : PendByRow i s t := by
  cases i with
  | settings f => exact .inr ⟨by rw [next_of_guard hexec]; rfl, nofun⟩
  | cellinfo f =>
    by_cases hlen : 300 ≤ f.length
    · cases hexec.symm.trans (exec_cellinfo s hlen)
      exact decodeCellinfo_pendByRow s hlen
    · cases hexec.symm.trans (if_pos (Nat.not_le.mp hlen))
  | deviceinfo f => cases hexec; exact decodeDeviceinfo_pendByRow f s
  | feed c => cases hexec; exact feedChunk_pendByRow c s
  | tick => exact exec_tick_pendByRow h hexec
  | writeReg a l v => cases hexec; exact .inr ⟨by rw [accept_eq]; split <;> rfl, nofun⟩
  | reqCellInfo =>
    cases hexec
    exact accept_request_pendByRow (.cellInfoRow s) fun p hrow => by cases hrow; assumption
  | reqDeviceInfo =>
    cases hexec
    exact accept_request_pendByRow (.deviceInfoRow s) fun p hrow => by cases hrow; assumption
  | cmd w => cases hexec; exact accept_command_pendByRow w s
  | sessionReset => cases hexec; exact .inl (.sessionReset s)
  | reset => cases hexec; exact .inl (.reset s)
  | statusRead o => cases hexec; cases o <;> exact .inr ⟨rfl, nofun⟩
  | cfgWrite c => cases hexec; cases c <;> exact .inr ⟨rfl, nofun⟩
  | checksum b n => exact .inr ⟨by rw [next_of_guard hexec]; rfl, nofun⟩
  | build a l v => cases hexec; exact .inr ⟨rfl, nofun⟩

/-- Settles O30: PEND goes by the one row that applies, and stays when none does (R209). -/
theorem pendTransitions : Obligations.PendTransitions := by
  unfold Obligations.PendTransitions
  intro i s t h hexec
  obtain hrow | ⟨hkept, hnone⟩ := exec_pendByRow h hexec
  · exact ⟨fun _ => hrow, fun p hp => hrow.unique hp⟩
  · exact ⟨fun hne => absurd hkept hne, fun p hp => absurd hp (hnone p)⟩

end Sys2Proof.Machine

/-! PROOFS. Conditions, configuration and status: which conditions an operation raises and that they stay set (R231,
R242), CFG_WRITE (R250), STATUS_READ and its reader (R251), and that no step stops (R252). -/

namespace Sys2Proof.Machine

/-! ### The conditions of a command -/

/-- A command raises nothing, or WFO for the pending tag under a bound of 0 (R202, R238, R242). -/
def CommandConditions (s : State) (es : List Event) : Prop := es = [] ∨ (s.cfgTmo = 0 ∧ es = [.wfo s.pend])

/-- An emission raises nothing (R203). -/
theorem raises_emitRequest (g : Tag) (s : State) : Raises [] s (emitRequest g s) := by
  obtain e | ⟨a, l, v, e⟩ := emitRequest_cases g s <;> rw [e] <;> exact .nil rfl rfl

/-- LAUNCH raises WFO exactly when a request is pending, whatever the new tag (R203, R238). -/
theorem raises_launch (g : Tag) (s : State) :
    Raises (if s.pend = 0 then [] else [.wfo s.pend]) s (launch g s) := by
  have habandon : Raises (if s.pend = 0 then [] else [.wfo s.pend]) s
      (clearHold (setTag g (if s.pend ≠ 0 then raise (.wfo s.pend) s else s))) := by
    by_cases hp : s.pend = 0
    · rw [if_pos hp, if_neg (not_not.mpr hp)]
      exact .nil rfl rfl
    · rw [if_neg hp, if_pos hp]
      exact ⟨rfl, (raises_raise (.wfo s.pend) s).evt⟩
  have hlaunch := habandon.trans (raises_emitRequest g _)
  rw [List.append_nil] at hlaunch
  exact hlaunch

theorem request_raises (g : Tag) (s : State) :
    ∃ es, Raises es s (request g s) ∧ CommandConditions s es := by
  obtain ⟨hnow, e⟩ | ⟨-, -, e⟩ := request_cases g s <;> rw [e]
  · refine ⟨_, raises_launch g s, ?_⟩
    split_ifs with hp
    · exact .inl rfl
    · exact .inr ⟨hnow.resolve_left hp, rfl⟩
  · exact ⟨[], .nil rfl rfl, .inl rfl⟩

theorem command_raises (w : CmdWord) (s : State) :
    ∃ es, Raises es s (command w s) ∧ CommandConditions s es := by
  unfold command
  split_ifs
  · exact ⟨[], .nil rfl rfl, .inl rfl⟩
  · exact request_raises 2 s
  · exact request_raises 3 s
  · exact ⟨[], .nil rfl rfl, .inl rfl⟩

/-- A command raises its conditions only when it is accepted (R41). -/
theorem accept_raises {act : State → State} {s : State}
    (h : ∃ es, Raises es s (act s) ∧ CommandConditions s es) :
    ∃ es, Raises es s (accept act s) ∧ CommandConditions s es := by
  rw [accept_eq]
  split_ifs
  · exact h
  · exact ⟨[], .nil rfl rfl, .inl rfl⟩

/-! ### The conditions of TICK -/

/-- TICK's step 2 raises nothing or TMO (R206, R235). -/
theorem tickTimeout_raises (s : State) :
    ∃ es, Raises es s (tickTimeout s) ∧ (es = [] ∨ es = [.tmo s.pend]) := by
  obtain ⟨-, e⟩ | ⟨-, -, e⟩ | ⟨-, -, e⟩ := tickTimeout_cases s <;> rw [e]
  · exact ⟨[], .nil rfl rfl, .inl rfl⟩
  · exact ⟨[], .nil rfl rfl, .inl rfl⟩
  · exact ⟨[.tmo s.pend], ⟨rfl, (raises_raise (.tmo s.pend) s).evt⟩, .inr rfl⟩

/-- TICK's step 3 raises nothing or WFO (R207, R238). -/
theorem tickPoll_raises (s : State) :
    ∃ es, Raises es s (tickPoll s) ∧ (es = [] ∨ es = [.wfo s.pend]) := by
  obtain ⟨-, e⟩ | ⟨-, -, e⟩ | ⟨-, -, -, e⟩ := tickPoll_cases s <;> rw [e]
  · exact ⟨[], .nil rfl rfl, .inl rfl⟩
  · have hlaunch := raises_launch s.holdT (incWait s)
    refine ⟨_, ⟨hlaunch.events, hlaunch.evt⟩, ?_⟩
    split_ifs
    · exact .inl rfl
    · exact .inr rfl
  · exact ⟨[], .nil rfl rfl, .inl rfl⟩

/-- TICK raises nothing or TMO in its step 2, then nothing or WFO in its step 3 (R204, R242). -/
theorem tickUnit_raises (s : State) :
    ∃ es fs, Raises (es ++ fs) s (tickUnit s) ∧ (es = [] ∨ es = [.tmo s.pend]) ∧ (fs = [] ∨ ∃ g, fs = [.wfo g]) := by
  obtain ⟨es, htimeout, hes⟩ := tickTimeout_raises (tickCellAge s)
  obtain ⟨fs, hpoll, hfs⟩ := tickPoll_raises (tickTimeout (tickCellAge s))
  have hall : Raises (es ++ fs) (tickCellAge s) (tickUnit s) := htimeout.trans hpoll
  rw [tickCellAge_eq] at hes hall
  exact ⟨es, fs, ⟨hall.events, hall.evt⟩, hes, hfs.imp_right fun h => ⟨_, h⟩⟩

/-- At rest step 3 of TICK raises no WFO, so TMO is all that TICK can raise (R208, R242). -/
theorem tickUnit_raises_of_inv {s : State} (h : s.Inv) :
    ∃ es, Raises es s (tickUnit s) ∧ (es = [] ∨ es = [.tmo s.pend]) := by
  obtain ⟨es, fs, hraises, hes, hfs⟩ := tickUnit_raises s
  obtain ⟨all, hall, hno⟩ := exec_tick_raisesNoWfo h rfl
  have hsame : all = es ++ fs := List.append_cancel_left (hall.symm.trans hraises.events)
  obtain rfl | ⟨g, rfl⟩ := hfs
  · rw [List.append_nil] at hraises
    exact ⟨es, hraises, hes⟩
  · exact absurd (by simp [hsame]) (hno g)

/-! ### The conditions of FEED -/

/-- Step 4 of FEED raises a condition only when it evaluates a complete buffer (R134, R242). -/
theorem feedChunk_raises_of_complete (c : List Byte) (s : State) :
    ∃ es, Raises es (fedState s) (feedChunk c s) ∧ EvaluationConditions es
      ∧ (es ≠ [] → 300 ≤ (fedBuffer c s).length) := by
  by_cases hshort : (fedBuffer c s).length < 300
  · rw [feedChunk_of_short hshort]
    exact ⟨[], .nil rfl rfl, .inl rfl, fun hne => absurd rfl hne⟩
  · obtain ⟨es, hraises, hes⟩ := feedChunk_raises c s
    exact ⟨es, hraises, hes, fun _ => Nat.not_lt.mp hshort⟩

/-- After an overflow FEED evaluates the chunk alone (R131). -/
theorem fedBuffer_of_overflow (c : List Byte) {s : State} (h : 320 < s.buf.length) : fedBuffer c s = c :=
  if_pos (.inr h)

/-! ### Every instruction -/

/-- Every instruction that goes on, but RESET, raises some list of conditions and clears no sticky bit (R231, R35). -/
theorem exec_raises {i : Instr} {s t : State} (h : exec i s = .next t) (hi : i ≠ .reset) : ∃ es, Raises es s t := by
  cases i with
  | settings f => exact ⟨[], by rw [next_of_guard h]; exact .nil rfl rfl⟩
  | cellinfo f =>
    obtain ⟨es, hraises, -⟩ := decodeCellinfo_raises f s
    exact ⟨es, by rwa [next_of_guard h]⟩
  | deviceinfo f => cases h; exact ⟨[], raises_matchTag 3 s⟩
  | feed c =>
    cases h
    obtain ⟨es, hraises, -⟩ := feedChunk_raises c s
    exact ⟨_, (fedState_raises s).trans hraises⟩
  | tick =>
    cases h
    obtain ⟨es, fs, hraises, -⟩ := tickUnit_raises s
    exact ⟨_, hraises⟩
  | writeReg a l v =>
    cases h
    exact (accept_raises ⟨[], .nil rfl rfl, .inl rfl⟩).imp fun _ hraises => hraises.1
  | reqCellInfo => cases h; exact (accept_raises (request_raises 2 s)).imp fun _ hraises => hraises.1
  | reqDeviceInfo => cases h; exact (accept_raises (request_raises 3 s)).imp fun _ hraises => hraises.1
  | cmd w => cases h; exact (accept_raises (command_raises w s)).imp fun _ hraises => hraises.1
  | reset => exact absurd rfl hi
  | sessionReset => cases h; exact ⟨[], .nil rfl rfl⟩
  | statusRead o => cases h; cases o <;> exact ⟨[], .nil rfl rfl⟩
  | cfgWrite c => cases h; cases c <;> exact ⟨[], .nil rfl rfl⟩
  | checksum b n => exact ⟨[], by rw [next_of_guard h]; exact .nil rfl rfl⟩
  | build a l v => cases h; exact ⟨[], .nil rfl rfl⟩

/-- Settles O31: what an instruction raises is appended, and its bits are set (R231). -/
theorem eventsSetStickyBits : Obligations.EventsSetStickyBits := by
  unfold Obligations.EventsSetStickyBits
  intro i s t h hi
  obtain ⟨es, hraises⟩ := exec_raises h hi
  exact ⟨es, hraises.events, hraises.evt⟩

/-- Settles O32: FEED raises OVF in its step 1 and at most one condition in its step 4; TICK, CMD and the other
operations by what each raises (R242). -/
theorem conditionsPerOperation : Obligations.ConditionsPerOperation := by
  unfold Obligations.ConditionsPerOperation
  intro s
  refine ⟨fun c => ?_, fun hinv => ?_, fun w => ?_, fun i t hi h => ?_⟩
  · obtain ⟨fs, hraises, hfs, hcomplete⟩ := feedChunk_raises_of_complete c s
    have hall := (fedState_raises s).trans hraises
    refine ⟨feedChunk c s, _, fs, exec_feed c s, ?_, rfl, hfs, fun hovf hne => ?_⟩
    · rw [hall.events, List.append_assoc]
    · have hover : 320 < s.buf.length := by
        by_contra hle
        exact hovf (if_neg hle)
      rw [← fedBuffer_of_overflow c hover]
      exact hcomplete hne
  · obtain ⟨es, hraises, rfl | rfl⟩ := tickUnit_raises_of_inv hinv
    · exact ⟨_, rfl, .inl (hraises.events.trans (List.append_nil _))⟩
    · exact ⟨_, rfl, .inr hraises.events⟩
  · obtain ⟨es, hraises, rfl | ⟨hzero, rfl⟩⟩ := accept_raises (command_raises w s)
    · exact ⟨_, rfl, .inl (hraises.events.trans (List.append_nil _))⟩
    · exact ⟨_, rfl, .inr ⟨hzero, hraises.events⟩⟩
  · obtain rfl | ⟨o, rfl⟩ | ⟨c, rfl⟩ := hi <;> cases h
    · rfl
    · cases o <;> rfl
    · cases c <;> rfl

/-! ### CFG_WRITE -/

/-- An instruction that goes on is followed by the others from the state it leaves (R70). -/
theorem runAll_cons {i : Instr} {s t : State} (is : List Instr) (h : exec i s = .next t) :
    runAll (i :: is) s = runAll is t := by
  rw [runAll, h]

theorem exec_cfgWrite (c : CfgWrite) (s : State) : exec (.cfgWrite c) s = .next (writeCfg c s) := rfl

/-- Settles O35: one record update per register, from which the next instruction runs (R75, R250). -/
theorem cfgWriteWritesOne : Obligations.CfgWriteWritesOne := by
  unfold Obligations.CfgWriteWritesOne
  intro v w is s
  exact ⟨⟨exec_cfgWrite (.proto v) s, runAll_cons is (exec_cfgWrite (.proto v) s)⟩,
    ⟨exec_cfgWrite (.refresh w) s, runAll_cons is (exec_cfgWrite (.refresh w) s)⟩,
    ⟨exec_cfgWrite (.tmo v) s, runAll_cons is (exec_cfgWrite (.tmo v) s)⟩⟩

/-! ### STATUS_READ -/

/-- An overlapping read sees a settings register whole, old or new (R65, R70). -/
theorem tornSetting_eq_or (s : State) (r : Setting) :
    tornSetting s r = s.statusBefore.st.get r ∨ tornSetting s r = s.status.st.get r := by
  unfold tornSetting
  split_ifs
  · exact .inl rfl
  · exact .inr rfl

/-- An overlapping read sees a cell register whole, old or new (R65, R70). -/
theorem tornCell_eq_or (s : State) (k : Nat) :
    tornCell s k = s.statusBefore.cell k ∨ tornCell s k = s.status.cell k := by
  unfold tornCell
  split_ifs
  · exact .inl rfl
  · exact .inr rfl

theorem tornStatus_get (s : State) (r : Setting) : (tornStatus s).st.get r = tornSetting s r := by
  cases r <;> rfl

theorem tornStatus_cv_length (s : State) : (tornStatus s).cv.length = s.params.ncellMax := by
  simp [tornStatus]

/-- `CV[1..NCELL_MAX]` of an overlapping read (R23, R70). -/
theorem tornStatus_cell {s : State} {k : Nat} (hpos : 1 ≤ k) (hk : k ≤ s.params.ncellMax) :
    (tornStatus s).cell k = tornCell s k := by
  have hindex : k - 1 < s.params.ncellMax := by omega
  simp [StatusModel.cell, tornStatus, hindex, Nat.sub_add_cancel hpos]

/-- Settles O36: the torn tuple is, register by register, old or new (R65, R70, R251). -/
theorem statusReadReturnsRegisters : Obligations.StatusReadReturnsRegisters := by
  unfold Obligations.StatusReadReturnsRegisters
  intro s
  refine ⟨rfl, tornStatus s, rfl, fun r => ?_, tornStatus_cv_length s, fun k hpos hk => ?_⟩
  · rw [tornStatus_get]
    exact tornSetting_eq_or s r
  · rw [tornStatus_cell hpos hk]
    exact tornCell_eq_or s k

/-! ### The reader -/

/-- The physical value is exact (R28, R161). -/
theorem physical_mul_thousand (raw : Nat) : physical raw * 1000 = raw :=
  div_mul_cancel₀ (raw : Rat) (by norm_num)

/-- A settings key is absent exactly when its register is invalid (R29). -/
theorem lookup_setting_eq_none_iff (m : StatusModel) (r : Setting) :
    m.lookup (.setting r) = none ↔ (m.st.get r).valid = false := by
  simp [StatusModel.lookup]

/-- A cell key is absent exactly when its register is invalid (R29). -/
theorem lookup_cellVoltage_eq_none_iff (m : StatusModel) {k : Nat} (hpos : 1 ≤ k) :
    m.lookup (.cellVoltage k) = none ↔ (m.cell k).valid = false := by
  simp [StatusModel.lookup, hpos]

/-- A valid setting other than the cell count reads scaled (R28, R251). -/
theorem lookup_setting_of_valid {m : StatusModel} {r : Setting} (hr : r ≠ .cellcnt)
    (hvalid : (m.st.get r).valid = true) :
    m.lookup (.setting r) = some (physical (m.st.get r).val.toNat) := by
  rw [StatusModel.lookup, if_pos hvalid, if_neg hr]

/-- A valid cell count reads unscaled (R28, R251). -/
theorem lookup_cellcnt_of_valid {m : StatusModel} (hvalid : (m.st.get .cellcnt).valid = true) :
    m.lookup (.setting .cellcnt) = some ((m.st.get .cellcnt).val.toNat : Rat) := by
  rw [StatusModel.lookup, if_pos hvalid, if_pos rfl]

/-- A valid cell reads scaled (R28, R251). -/
theorem lookup_cellVoltage_of_valid {m : StatusModel} {k : Nat} (hpos : 1 ≤ k) (hvalid : (m.cell k).valid = true) :
    m.lookup (.cellVoltage k) = some (physical (m.cell k).val.toNat) := by
  rw [StatusModel.lookup, if_pos ⟨hpos, hvalid⟩]

/-- Settles O37: presence is validity, and the scale is exact (R28, R29, R251). -/
theorem readerSeesValidKeys : Obligations.ReaderSeesValidKeys := by
  unfold Obligations.ReaderSeesValidKeys
  intro m
  exact ⟨lookup_setting_eq_none_iff m,
    fun _ hr hvalid => ⟨_, lookup_setting_of_valid hr hvalid, physical_mul_thousand _⟩,
    lookup_cellcnt_of_valid,
    fun _ hpos => lookup_cellVoltage_eq_none_iff m hpos,
    fun _ hpos hvalid => ⟨_, lookup_cellVoltage_of_valid hpos hvalid, physical_mul_thousand _⟩⟩

/-! ### No step stops -/

/-- The operation of a port goes on in every state: the rows that can fault have no port (R252, log 6). -/
theorem exec_decodePort_goesOn (e : PortEvent) (s : State) : ∃ t, exec (decodePort e) s = .next t := by
  cases e <;> exact ⟨_, rfl⟩

/-- Settles O41: a step is idle or the operation of a port (R247, R252). -/
theorem everyStepGoesOn : Obligations.EveryStepGoesOn := by
  unfold Obligations.EveryStepGoesOn
  intro s
  cases hin : s.inbox with
  | nil => exact ⟨s, step_of_inbox_nil hin⟩
  | cons e rest =>
    rw [step_of_inbox_cons hin]
    exact exec_decodePort_goesOn e _

end Sys2Proof.Machine

/-! PROOFS. The two resets: every register at its reset value and the invariant at rest (R50, R260), and the scope of
SESSION_RESET (R261). -/

namespace Sys2Proof.Machine

/-! ### RESET -/

theorem exec_reset (s : State) : exec .reset s = .next (resetEngine s) := rfl

/-- A cleared settings register holds 0 and is invalid (R50). -/
theorem cleared_st_get (p : Params) (r : Setting) : (StatusModel.cleared p).st.get r = ⟨0, false⟩ := by
  cases r <;> rfl

/-- RESET leaves the status registers cleared (R50, R260). -/
theorem resetEngine_status (s : State) : (resetEngine s).status = StatusModel.cleared s.params := rfl

/-- RESET changes nothing in the state right after reset. -/
theorem resetEngine_resetWith (p : Params) : resetEngine (State.resetWith p) = State.resetWith p := rfl

/-- The state right after reset meets the invariant, as RESET leaves it so (R50, R260). -/
theorem inv_resetWith (p : Params) : (State.resetWith p).Inv := by
  rw [← resetEngine_resetWith p]
  exact inv_resetEngine (State.resetWith p)

/-- Settles O33: the status files are those of the cleared model, and every other register is its entry of the reset
state (R50, R260). -/
theorem resetSetsEveryRegister : Obligations.ResetSetsEveryRegister := by
  unfold Obligations.ResetSetsEveryRegister
  intro s
  have hst (r : Setting) : (resetEngine s).status.st.get r = ⟨0, false⟩ := by
    rw [resetEngine_status, cleared_st_get]
  have hcv : (resetEngine s).status.cv = List.replicate s.params.ncellMax ⟨0, false⟩ := rfl
  exact ⟨resetEngine s, exec_reset s, rfl, hst, hcv,
    rfl, rfl, rfl, rfl, rfl, rfl, rfl, rfl, rfl, rfl, rfl, rfl, rfl⟩

/-- Settles O46: RESET establishes the invariant, and the reset state is one that RESET leaves (R260). -/
theorem resetMeetsInvariant : Obligations.ResetMeetsInvariant := by
  unfold Obligations.ResetMeetsInvariant
  exact ⟨inv_resetWith, inv_resetWith Params.default, fun s => ⟨resetEngine s, exec_reset s, inv_resetEngine s⟩⟩

/-! ### SESSION_RESET -/

theorem exec_sessionReset (s : State) : exec .sessionReset s = .next (resetSession s) := rfl

/-- The buffer and the correlator are cleared, and every other field stays (R261). -/
theorem resetSession_eq (s : State) :
    resetSession s = { s with buf := [], pend := 0, age := 0, holdV := false, holdT := 0, wait := 0 } := rfl

/-- Settles O34: `resetSession` clears the buffer, the tag and the held request, and writes no other field (R261). -/
theorem sessionResetScope : Obligations.SessionResetScope := by
  unfold Obligations.SessionResetScope
  intro s
  rw [exec_sessionReset, resetSession_eq]

end Sys2Proof.Machine
